-- ==== Sys2Proof/Word.lean ====
section
/-!
DEFINITION. The two word types of the engine: the byte of a channel (R50) and the 64-bit register word (R20).
All values are unsigned and bit 0 is the least significant (R7).
-/

namespace Sys2Proof

/-- The unit of the input and output channels (R50, R51). -/
abbrev Byte := BitVec 8

/-- The contents of a host register (R20). -/
abbrev Word := BitVec 64

end Sys2Proof
end

