-- ==== Sys2Proof/Config.lean ====
section
/-!
DEFINITION. What the hardware fixes (the two code variants of R5 and the mask tables of R31) and what its environment
leaves open: the outcomes of the channel primitives (`IO_ORACLE`, R6 and R58) and the input of a stream command for which
the host supplied none. The other open parameter, `ENGINE_BASE`, is an argument in Machine/Platform.lean.
-/

namespace Sys2Proof

/-- The code variant, selected by the VAR bit of a command word (R5). -/
inductive Variant where
  | h32
  | h64
  deriving DecidableEq, Repr, Inhabited

namespace Variant

/-- D, the number of data bits (R5). -/
abbrev D : Variant → Nat
  | .h32 => 26
  | .h64 => 57

/-- W, the number of code bits (R5). -/
abbrev W : Variant → Nat
  | .h32 => 32
  | .h64 => 64

/-- The number of group-parity bits: `log2(W/2) + 1` (R81, R130 step 3). -/
def groups : Variant → Nat
  | .h32 => 5
  | .h64 => 6

/-- F, the frame period in bits, `lcm(D, W)` (R5). -/
def F : Variant → Nat
  | .h32 => 416
  | .h64 => 3648

/-- N, the number of codewords in a frame (R5). -/
def N : Variant → Nat
  | .h32 => 16
  | .h64 => 64

/-- FIN, the plain bytes of a frame (R5). -/
def FIN : Variant → Nat
  | .h32 => 52
  | .h64 => 456

/-- FOUT, the encoded bytes of a frame (R5). -/
def FOUT : Variant → Nat
  | .h32 => 64
  | .h64 => 512

/-- PMASK_W, the parity positions (R31). -/
def pmask : (v : Variant) → BitVec v.W
  | .h32 => 0x00010117#32
  | .h64 => 0x0000000100010117#64

/-- DMASK_W, the data positions (R31). -/
def dmask : (v : Variant) → BitVec v.W
  | .h32 => 0xFFFEFEE8#32
  | .h64 => 0xFFFFFFFEFFFEFEE8#64

end Variant

/-- The outcome of one channel primitive (R55 to R57). ChanOpen and ChanRead ignore the number of a failure;
ChanWrite takes from it how many bytes went out before the failure. -/
inductive IoDraw where
  | ok
  | fail (k : Nat)
  deriving DecidableEq, Repr, Inhabited

namespace Config

/-- The identity string of the engine (R1). -/
def identity : String := "hamming_codec_engine (roboevt/Hamming, source spec v7)"

/-- FREE VALUE (R58, `IO_ORACLE`; log entries 3 and 23): in a channel environment, the outcome of the n-th channel primitive
when the state lists no outcome for it. It has no body, so a claim holds for every environment. -/
opaque ioOracle (environment n : Nat) : IoDraw

/-- FREE VALUE (R50, R243; log entries 4 and 23): in a channel environment, the contents of the input channel of a stream
command for which the host supplied none, by the number n of channel primitives before it. -/
opaque unsuppliedInput (environment n : Nat) : List Byte

end Config

end Sys2Proof
end

