-- ==== Sys2Proof/Syntax.lean ====
section
/-!
DEFINITION. The instructions of the engine: the fifteen commands of R87, one constructor per row of
spec/opcode_table.json. A command word carries no immediate, register number or address (R80), so no constructor has an
argument; its operand is the OPERAND register or the channels (R85).
-/

namespace Sys2Proof

/-- A command the engine executes (R87). -/
inductive Instr where
  /-- R201 -/
  | nop
  /-- R104 -/
  | expand32
  /-- R105 -/
  | expand64
  /-- R106 -/
  | compress32
  /-- R107 -/
  | compress64
  /-- R123 -/
  | check32
  /-- R124 -/
  | check64
  /-- R132 -/
  | encode32
  /-- R133 -/
  | encode64
  /-- R153 -/
  | decode32
  /-- R154 -/
  | decode64
  /-- R181 -/
  | encstream32
  /-- R182 -/
  | encstream64
  /-- R183 -/
  | decstream32
  /-- R184 -/
  | decstream64
  deriving DecidableEq, Repr

end Sys2Proof
end

