-- ==== Sys2Proof/Machine/HostSyntax.lean ====
section
/-!
DEFINITION. What the agents outside the engine can do: the register names and accesses of the host (R20, R60, R90), the
host operations (R90, R202, R255), and the events whose order interleaves host, engine and platform (R202).
-/

namespace Sys2Proof.Machine

/-- The eight registers of the block (R20). -/
inductive Reg where
  | cmd
  | operand
  | result
  | status
  | sinBytes
  | soutBytes
  | sframes
  /-- The reserved offset 0x38. -/
  | reserved
  deriving DecidableEq, Repr

/-- The byte offset of a register from ENGINE_BASE (R20). -/
def Reg.offset : Reg → Nat
  | .cmd => 0x00
  | .operand => 0x08
  | .result => 0x10
  | .status => 0x18
  | .sinBytes => 0x20
  | .soutBytes => 0x28
  | .sframes => 0x30
  | .reserved => 0x38

/-- A host access to the register block: its byte offset from ENGINE_BASE and its width in bits (R60). -/
structure Access where
  offset : Nat
  width : Nat
  deriving DecidableEq, Repr

/-- The 64-bit access to a register. -/
def Reg.access (r : Reg) : Access := ⟨r.offset, 64⟩

/-- The register a defined access reaches: a 64-bit access at 0x00, 0x08, ..., 0x38; every other access has no
meaning (R60). -/
def Access.reg? (a : Access) : Option Reg :=
  if a.width = 64 then
    if a.offset = 0x00 then some .cmd
    else if a.offset = 0x08 then some .operand
    else if a.offset = 0x10 then some .result
    else if a.offset = 0x18 then some .status
    else if a.offset = 0x20 then some .sinBytes
    else if a.offset = 0x28 then some .soutBytes
    else if a.offset = 0x30 then some .sframes
    else if a.offset = 0x38 then some .reserved
    else none
  else none

/-- One operation of the host (R90, R202, R255). -/
inductive HostOp where
  /-- `st REG, imm` -/
  | store (a : Access) (v : Word)
  /-- `ld REG -> name` -/
  | load (a : Access)
  /-- `wait`: repeat `ld STATUS` until BUSY = 0 -/
  | wait
  /-- `in = [b0, b1, ...]`: the input channel of the next stream command -/
  | supply (bytes : List Byte)
  /-- `in = out`: supply the bytes of the last output channel -/
  | supplyOutput
  /-- read the last output channel (R255) -/
  | readOutput
  deriving DecidableEq, Repr

/-- Who moves next (R202). -/
inductive Event where
  /-- a host operation -/
  | host (op : HostOp)
  /-- the engine is scheduled for one cycle -/
  | cycle
  /-- the platform asserts reset -/
  | reset
  deriving DecidableEq, Repr

/-- An event is the host's. -/
def Event.isHost : Event → Bool
  | .host _ => true
  | .cycle => false
  | .reset => false

end Sys2Proof.Machine
end

