-- ==== Sys2Proof/WellFormed.lean ====
section
/-!
DEFINITION. The checks on what the host hands the engine, written from the spec and independently of the decoder: which
command words are legal (R88) and which register accesses are defined (R60). A term of `Instr` has no operand, so each is
well-formed.
-/

namespace Sys2Proof

/-- A legal command word: bits [63:5] zero, OP below 8, and not OP = 0 with VAR = 1 (R88). -/
def wordLegal (w : Word) : Bool :=
  w.extractLsb' 5 59 == 0 && decide ((w.extractLsb' 0 4).toNat < 8) && !(w.extractLsb' 0 4 == 0 && w.getLsbD 4)

/-- A defined register access: 64 bits wide, at an offset below 0x40 that is a multiple of 8 (R60). -/
def Machine.Access.wf (a : Machine.Access) : Bool :=
  a.width == 64 && a.offset % 8 == 0 && decide (a.offset < 0x40)

/-- A host operation the spec gives a meaning: every one but an undefined register access (R60). -/
def Machine.HostOp.wf : Machine.HostOp → Bool
  | .store a _ => a.wf
  | .load a => a.wf
  | .wait => true
  | .supply _ => true
  | .supplyOutput => true
  | .readOutput => true

end Sys2Proof
end

