-- ==== Sys2Proof/Decode.lean ====
section
/-!
DEFINITION. The decoder of command words, total on every 64-bit value and rejecting by name (R80, R87 to R89), and the
encoder, from the same table.
-/

namespace Sys2Proof

/-- Why a command word is illegal: the three conditions of R88. -/
inductive IllegalWord where
  /-- bits [63:5] are not all zero -/
  | reservedBits
  /-- OP is 0x8 to 0xF -/
  | reservedOp
  /-- OP = 0x0 and VAR = 1 -/
  | nopVariant
  deriving DecidableEq, Repr

/-- The OP field, bits [3:0] (R80). -/
def opField (w : Word) : BitVec 4 := w.extractLsb' 0 4

/-- The VAR bit, bit [4] (R80). -/
def varField (w : Word) : Bool := w.getLsbD 4

/-- The reserved bits [63:5] (R80). -/
def reservedField (w : Word) : BitVec 59 := w.extractLsb' 5 59

/-- The opcode map (R87), on a word whose reserved bits are zero. -/
def decodeFields (op : Nat) (var : Bool) : Except IllegalWord Instr :=
  match op, var with
  | 0, false => .ok .nop
  | 0, true => .error .nopVariant
  | 1, false => .ok .expand32
  | 1, true => .ok .expand64
  | 2, false => .ok .compress32
  | 2, true => .ok .compress64
  | 3, false => .ok .check32
  | 3, true => .ok .check64
  | 4, false => .ok .encode32
  | 4, true => .ok .encode64
  | 5, false => .ok .decode32
  | 5, true => .ok .decode64
  | 6, false => .ok .encstream32
  | 6, true => .ok .encstream64
  | 7, false => .ok .decstream32
  | 7, true => .ok .decstream64
  | _ + 8, _ => .error .reservedOp

/-- The decoder (R87, R88, R89). -/
def decode (w : Word) : Except IllegalWord Instr :=
  if reservedField w = 0 then decodeFields (opField w).toNat (varField w) else .error .reservedBits

/-- The OP of a command (R87). -/
def Instr.op : Instr → BitVec 4
  | .nop => 0x0
  | .expand32 => 0x1
  | .expand64 => 0x1
  | .compress32 => 0x2
  | .compress64 => 0x2
  | .check32 => 0x3
  | .check64 => 0x3
  | .encode32 => 0x4
  | .encode64 => 0x4
  | .decode32 => 0x5
  | .decode64 => 0x5
  | .encstream32 => 0x6
  | .encstream64 => 0x6
  | .decstream32 => 0x7
  | .decstream64 => 0x7

/-- The VAR of a command: 0 for H32 and NOP, 1 for H64 (R87). -/
def Instr.var : Instr → BitVec 1
  | .nop => 0
  | .expand32 => 0
  | .expand64 => 1
  | .compress32 => 0
  | .compress64 => 1
  | .check32 => 0
  | .check64 => 1
  | .encode32 => 0
  | .encode64 => 1
  | .decode32 => 0
  | .decode64 => 1
  | .encstream32 => 0
  | .encstream64 => 1
  | .decstream32 => 0
  | .decstream64 => 1

/-- The command word of a command: reserved zeros, VAR, OP (R80). -/
def encode (i : Instr) : Word := 0#59 ++ i.var ++ i.op

/-- What the decoder reads from an instruction of the opcode table whose `nbits` bits are `w`. A command word is one 64-bit
store (R89), and a bit above `nbits` is 0. -/
def decodeTableWord (nbits w : Nat) : Option Instr :=
  match decode (BitVec.ofNat 64 (w % 2 ^ nbits)) with
  | .ok i => some i
  | .error _ => none

end Sys2Proof
end

