-- ==== Sys2Proof/Machine/State.lean ====
section
/-!
DEFINITION. The state of the machine as plain data: the registers of R20, PHASE and the channel handles (R28, R29), the
output channels' contents (R202), and what the environment supplies (R50, R58, R202). State.reset is the state of R34.
-/

namespace Sys2Proof.Machine

/-- The codes of STATUS.ERR; 7 to 15 are never produced (R25). -/
inductive ErrCode where
  /-- NONE -/
  | noError
  /-- INPUT_TOO_WIDE, R210 -/
  | inputTooWide
  /-- UNCORRECTABLE, R213 -/
  | uncorrectable
  /-- IO_FAILURE, R214 -/
  | ioFailure
  /-- ILLEGAL_COMMAND, R212 -/
  | illegalCommand
  /-- OPERAND_TOO_WIDE, R211 -/
  | operandTooWide
  /-- MALFORMED_STREAM, R215 -/
  | malformedStream
  deriving DecidableEq, Repr

/-- The rows of the decode decision table (R26). -/
inductive DClass where
  | clean
  | parityOnly
  | uncorrectable
  | corrected
  deriving DecidableEq, Repr

/-- An open input channel: its contents, fixed at accept (R58), and the read position (R29, R56). -/
structure InputChannel where
  src : List Byte
  pos : Nat
  deriving DecidableEq, Repr

/-- PHASE (R28) with the channel handles, which are held exactly while PHASE is not IDLE (R29). The output handle is on the
newest sequence of `State.outputs`. -/
inductive Phase where
  | idle
  | encStream (v : Variant) (ch : InputChannel)
  | decStream (v : Variant) (ch : InputChannel)
  deriving DecidableEq, Repr

/-- What the host has seen: the value of a load, or the bytes of an output channel (R202, R255). -/
inductive HostObs where
  | word (w : Word)
  | bytes (bs : List Byte)
  deriving DecidableEq, Repr

/-- The machine's state. STATUS is held as its fields and read whole by `State.statusWord` (R24). -/
structure State where
  /-- CMD_LAST (R21) -/
  cmdLast : Word
  /-- OPERAND (R22) -/
  operand : Word
  /-- RESULT (R23) -/
  result : Word
  /-- STATUS.ERR (R24, R25) -/
  err : ErrCode
  /-- STATUS.DCLASS (R24, R26) -/
  dclass : DClass
  /-- STATUS.SYNDROME (R24) -/
  syndrome : BitVec 6
  /-- STATUS.PARITY (R24) -/
  parity : Bool
  /-- SIN_BYTES (R27) -/
  sinBytes : Word
  /-- SOUT_BYTES (R27) -/
  soutBytes : Word
  /-- SFRAMES (R27) -/
  sframes : Word
  /-- PHASE and the channel handles (R28, R29) -/
  phase : Phase
  /-- the contents of the output channels, newest first (R50, R202) -/
  outputs : List (List Byte)
  /-- the input contents supplied for the next stream command (R50, R90) -/
  nextInput : Option (List Byte)
  /-- the model's own: what the host has seen, newest first -/
  observed : List HostObs
  /-- the model's own: what host, scheduler and platform do next (R202) -/
  events : List Event
  /-- the model's own: the outcomes of the next channel primitives (R58) -/
  draws : List IoDraw
  /-- the model's own: how many channel primitives have taken an outcome -/
  drawCount : Nat
  /-- the model's own: the number of the channel environment that answers this engine; engines of one platform may have
  different ones (R58, R222; log entry 23) -/
  environment : Nat
  deriving DecidableEq, Repr

/-- The engine has no fault: every error of R25 is a value of STATUS.ERR, and no error locks or halts it (R217, R218). So
this type has no constructor, and no step ends in a fault. -/
inductive Fault where
  deriving DecidableEq, Repr

/-- Why a step gives no next state: the host's program is outside the spec. -/
inductive Refusal where
  /-- Raised by an arm of exec for a command that has no meaning yet; safe. No arm raises it. -/
  | notModelled (mnemonic : String)
  /-- Raised by a host load or store that is not an aligned 64-bit access at 0x00 to 0x38, as R60 asks; safe. -/
  | undefinedAccess (a : Access)
  /-- Raised by Machine/Platform.lean for an address in no engine's block (R63); safe. -/
  | outsideEveryBlock (addr : Word)
  deriving DecidableEq, Repr

/-- The state right after power-on reset (R34, R241), before the host has supplied anything. -/
def State.reset : State where
  cmdLast := 0
  operand := 0
  result := 0
  err := .noError
  dclass := .clean
  syndrome := 0
  parity := false
  sinBytes := 0
  soutBytes := 0
  sframes := 0
  phase := .idle
  outputs := []
  nextInput := none
  observed := []
  events := []
  draws := []
  drawCount := 0
  environment := 0

end Sys2Proof.Machine
end

