-- ==== Sys2Proof/Machine/Codec.lean ====
section
/-!
DEFINITION. The word functions of the codec, each the loop the spec writes: expand and compress (R100, R101), check and par
(R120, R121), encode (R130) and decode (R150). A loop over bit indices is a recursion on how many indices it has done.
-/

namespace Sys2Proof.Machine

/-- `c[k] <- b` (R8). -/
def assignBit {w : Nat} (c : BitVec w) (k : Nat) (b : Bool) : BitVec w :=
  if b then c ||| BitVec.twoPow w k else c &&& ~~~ BitVec.twoPow w k

/-- pos_W(i), the data position of message bit i (R82). -/
def dataPos (i : Nat) : Nat :=
  if i = 0 then 3
  else if i ≤ 3 then i + 4
  else if i ≤ 10 then i + 5
  else if i ≤ 25 then i + 6
  else i + 7

/-- The loop of R100 after the message bits below `n`. -/
def scatter {d : Nat} (w : Nat) (m : BitVec d) : Nat → BitVec w
  | 0 => 0#w
  | n + 1 => assignBit (scatter w m n) (dataPos n) (m.getLsbD n)

/-- expand_W (R100), for a message of D bits. -/
def expandW (v : Variant) (m : BitVec v.D) : BitVec v.W := scatter v.W m v.D

/-- The loop of R101 after the message bits below `n`. -/
def gather {w : Nat} (d : Nat) (c : BitVec w) : Nat → BitVec d
  | 0 => 0#d
  | n + 1 => assignBit (gather d c n) n (c.getLsbD (dataPos n))

/-- compress_W (R101). -/
def compressW (v : Variant) (c : BitVec v.W) : BitVec v.D := gather v.D c v.D

/-- The loop of R120 after the indices below `n`. The indices of a word of at most 64 bits fit in 6 bits (R84). -/
def syndromeBelow {w : Nat} (c : BitVec w) : Nat → BitVec 6
  | 0 => 0#6
  | n + 1 => if c.getLsbD n then syndromeBelow c n ^^^ BitVec.ofNat 6 n else syndromeBelow c n

/-- check_W (R120): the XOR-fold of the indices of the set bits, over the full width. -/
def checkW {w : Nat} (c : BitVec w) : BitVec 6 := syndromeBelow c w

/-- The number of set bits among the indices below `n`. -/
def popcountBelow {w : Nat} (c : BitVec w) : Nat → Nat
  | 0 => 0
  | n + 1 => popcountBelow c n + if c.getLsbD n then 1 else 0

/-- popcount (R8). -/
def popcount {w : Nat} (c : BitVec w) : Nat := popcountBelow c w

/-- par (R121): `popcount(c) mod 2`. -/
def par {w : Nat} (c : BitVec w) : Bool := popcount c % 2 == 1

/-- Step 3 of R130 after the group-parity bits below `k`: flip bit 2^k where bit k of the syndrome is set. -/
def flipGroups {w : Nat} (s : BitVec 6) (c : BitVec w) : Nat → BitVec w
  | 0 => c
  | k + 1 =>
    if s.getLsbD k then flipGroups s c k ^^^ BitVec.twoPow w (2 ^ k) else flipGroups s c k

/-- Step 4 of R130: set bit 0 so that the population count is even. -/
def closeParity {w : Nat} (c : BitVec w) : BitVec w := if par c then c ||| 1#w else c

/-- encode_W (R130), in its four steps. -/
def encodeW (v : Variant) (m : BitVec v.D) : BitVec v.W :=
  closeParity (flipGroups (checkW (expandW v m)) (expandW v m) v.groups)

/-- The row of the decision table, from the syndrome and parityBefore (R26, R150). -/
def dclassOf (s : BitVec 6) (p : Bool) : DClass :=
  if s = 0 then
    if p then .parityOnly else .clean
  else
    if p then .corrected else .uncorrectable

/-- What decode_W yields (R150): `Ok(m)` or, for `none`, Uncorrectable, with the syndrome, parityBefore and row. -/
structure Decoded (d : Nat) where
  message : Option (BitVec d)
  syndrome : BitVec 6
  parity : Bool
  dclass : DClass
  deriving DecidableEq, Repr

/-- The message a row of the decision table returns (R150). -/
def decodeRow (v : Variant) (c : BitVec v.W) (s : BitVec 6) : DClass → Option (BitVec v.D)
  | .clean => some (compressW v c)
  | .parityOnly => some (compressW v c)
  | .corrected => some (compressW v (c ^^^ BitVec.twoPow v.W s.toNat))
  | .uncorrectable => none

/-- decode_W (R150); syndrome and parity are taken from the word before any change. -/
def decodeW (v : Variant) (c : BitVec v.W) : Decoded v.D where
  message := decodeRow v c (checkW c) (dclassOf (checkW c) (par c))
  syndrome := checkW c
  parity := par c
  dclass := dclassOf (checkW c) (par c)

end Sys2Proof.Machine
end

