-- ==== Sys2Proof/Machine/Flags.lean ====
section
/-!
DEFINITION. STATUS: the codes of its fields (R25, R26), the word a load returns (R24), and the writes of SYNDROME, PARITY
and DCLASS (R123, R124, R153, R154).
-/

namespace Sys2Proof.Machine

/-- The code of an error in STATUS[7:4] (R25). -/
def ErrCode.code : ErrCode → BitVec 4
  | .noError => 0
  | .inputTooWide => 1
  | .uncorrectable => 2
  | .ioFailure => 3
  | .illegalCommand => 4
  | .operandTooWide => 5
  | .malformedStream => 6

/-- The code of a decision row in STATUS[9:8]: `((s != 0) << 1) | parityBefore` (R26). -/
def DClass.code : DClass → BitVec 2
  | .clean => 0b00
  | .parityOnly => 0b01
  | .uncorrectable => 0b10
  | .corrected => 0b11

/-- STATUS.BUSY: PHASE is not IDLE (R24, R28). -/
def State.busy (s : State) : Bool :=
  match s.phase with
  | .idle => false
  | .encStream _ _ => true
  | .decStream _ _ => true

/-- The STATUS word: PARITY [24], SYNDROME [21:16], DCLASS [9:8], ERR [7:4], BUSY [0], the other bits 0 (R24). -/
def State.statusWord (s : State) : Word :=
  0#39 ++ BitVec.ofBool s.parity ++ 0#2 ++ s.syndrome ++ 0#6 ++ s.dclass.code ++ s.err.code ++ 0#3 ++ BitVec.ofBool s.busy

/-- CHECK's write of SYNDROME and PARITY (R123, R124). -/
def State.setCheck (s : State) (syn : BitVec 6) (p : Bool) : State := { s with syndrome := syn, parity := p }

/-- DECODE's write of SYNDROME, PARITY and DCLASS (R153, R154). -/
def State.setDecode (s : State) (syn : BitVec 6) (p : Bool) (d : DClass) : State :=
  { s with syndrome := syn, parity := p, dclass := d }

end Sys2Proof.Machine
end

