-- ==== Sys2Proof/Machine/Frame.lean ====
section
/-!
DEFINITION. Byte sequences and frames: little-endian values (R52), the windows of a plain frame (R53, R54), encFrame (R171),
decFrame (R172) and trim (R173).
-/

namespace Sys2Proof.Machine

/-- `LE(b)`: byte j has weight 2^(8j) (R52). -/
def leValue : List Byte → Nat
  | [] => 0
  | b :: bs => b.toNat + 256 * leValue bs

/-- `bytes_LE(x, n)`: the n bytes of x, least significant first (R52). -/
def leBytes (x : Nat) : Nat → List Byte
  | 0 => []
  | n + 1 => BitVec.ofNat 8 x :: leBytes (x / 256) n

/-- Window k of a plain frame of value x: its bits k·D to k·D + D − 1 (R53). -/
def window (v : Variant) (x k : Nat) : BitVec v.D := BitVec.ofNat v.D (x >>> (k * v.D))

/-- The encoded bytes of the first `n` windows of a plain frame of value x (R171). -/
def encodeWindows (v : Variant) (x : Nat) : Nat → List Byte
  | 0 => []
  | n + 1 => encodeWindows v x n ++ leBytes (encodeW v (window v x n)).toNat (v.W / 8)

/-- encFrame_W (R171), for a frame of FIN bytes. -/
def encFrame (v : Variant) (bs : List Byte) : List Byte := encodeWindows v (leValue bs) v.N

/-- Codeword k of an encoded frame (R172). -/
def codewordAt (v : Variant) (bs : List Byte) (k : Nat) : BitVec v.W :=
  BitVec.ofNat v.W (leValue ((bs.drop (k * (v.W / 8))).take (v.W / 8)))

/-- The result of decFrame_W (R172): the plain value or bytes, or the lowest index of a codeword that fails. -/
inductive FrameResult (α : Type) where
  | decoded (x : α)
  | uncorrectable (k : Nat)
  deriving DecidableEq, Repr

/-- The loop of R172 after the codewords below `n`: the plain value so far, or the first failure. -/
def decodeCodewords (v : Variant) (bs : List Byte) : Nat → FrameResult Nat
  | 0 => .decoded 0
  | n + 1 =>
    match decodeCodewords v bs n with
    | .uncorrectable k => .uncorrectable k
    | .decoded y =>
      match (decodeW v (codewordAt v bs n)).message with
      | none => .uncorrectable n
      | some m => .decoded (y ||| (m.toNat <<< (n * v.D)))

/-- decFrame_W (R172), for a frame of FOUT bytes. -/
def decFrame (v : Variant) (bs : List Byte) : FrameResult (List Byte) :=
  match decodeCodewords v bs v.N with
  | .uncorrectable k => .uncorrectable k
  | .decoded y => .decoded (leBytes y v.FIN)

/-- A byte sequence without its trailing run of zero bytes. -/
def dropTrailingZeros : List Byte → List Byte
  | [] => []
  | b :: bs =>
    match dropTrailingZeros bs with
    | [] => if b = 0 then [] else [b]
    | t :: ts => b :: t :: ts

/-- trim (R173): byte 0 is kept, and a run of zero bytes that reaches the end of the frame is dropped from the second byte
on. -/
def trim : List Byte → List Byte
  | [] => []
  | b :: bs => b :: dropTrailingZeros bs

end Sys2Proof.Machine
end

