-- ==== Sys2Proof/Machine/Operands.lean ====
section
/-!
DEFINITION. The two operand forms of a word command, both read from OPERAND with their width checks (R85, R210, R211).
-/

namespace Sys2Proof.Machine

/-- OPERAND as a message: all 64 bits, compared unsigned against 2^D with no truncation; `none` is INPUT_TOO_WIDE
(R85, R210). -/
def messageOperand (v : Variant) (s : State) : Option (BitVec v.D) :=
  if s.operand.toNat < 2 ^ v.D then some (s.operand.setWidth v.D) else none

/-- OPERAND as a codeword of W bits; `none` is OPERAND_TOO_WIDE, which no 64-bit value is for H64 (R85, R211). -/
def codewordOperand (v : Variant) (s : State) : Option (BitVec v.W) :=
  if s.operand.toNat < 2 ^ v.W then some (s.operand.setWidth v.W) else none

end Sys2Proof.Machine
end

