-- ==== Sys2Proof/Machine/Ops.lean ====
section
/-!
DEFINITION. The named operations over the registers and the channels: ending a command (R216, R218), the drawn outcomes of
the channel primitives (R55 to R58), the stream counters (R27), register reads (R20, R61), reset (R240, R242) and placing the
next command.
-/

namespace Sys2Proof.Machine

/-! ### Ending a command -/

/-- STATUS.ERR <- e (R24). -/
def State.setErr (s : State) (e : ErrCode) : State := { s with err := e }

/-- `raise E` in a word command, and for an illegal word: only ERR changes (R216, R217). -/
def State.raise (s : State) (e : ErrCode) : State := s.setErr e

/-- The end of a stream command: PHASE <- IDLE and both channels are released (R29, R175). -/
def State.endStream (s : State) : State := { s with phase := .idle }

/-- `raise E` in a stream command: ERR <- E, PHASE <- IDLE, and the channels are released (R216). -/
def State.raiseStream (s : State) (e : ErrCode) : State := (s.raise e).endStream

/-- A word command that ends with ERR = NONE and writes RESULT (R23). -/
def State.finish (s : State) (r : Word) : State := { s with result := r, err := .noError }

/-! ### Stream counters (R27), which wrap modulo 2^64 -/

/-- SIN_BYTES <- SIN_BYTES + n. -/
def State.addSin (s : State) (n : Nat) : State := { s with sinBytes := s.sinBytes + BitVec.ofNat 64 n }

/-- SOUT_BYTES <- SOUT_BYTES + n. -/
def State.addSout (s : State) (n : Nat) : State := { s with soutBytes := s.soutBytes + BitVec.ofNat 64 n }

/-- SFRAMES <- SFRAMES + 1. -/
def State.addFrame (s : State) : State := { s with sframes := s.sframes + 1 }

/-! ### Channels -/

/-- The outcome of the next channel primitive: the next one the state lists, else the free value of the
engine's environment (R58; log entries 3 and 23). -/
def State.nextDraw (s : State) : IoDraw :=
  match s.draws with
  | [] => Config.ioOracle s.environment s.drawCount
  | d :: _ => d

/-- The outcome of the next channel primitive has been taken. -/
def State.takeDraw (s : State) : State := { s with draws := s.draws.tail, drawCount := s.drawCount + 1 }

/-- The bytes of the newest output channel, and none where no stream command has run. -/
def State.lastOutput (s : State) : List Byte :=
  match s.outputs with
  | [] => []
  | o :: _ => o

/-- Append to the newest output channel (R50, R57). -/
def State.appendOutput (s : State) (bs : List Byte) : State :=
  { s with outputs := (s.lastOutput ++ bs) :: s.outputs.tail }

/-- The input contents of the stream command that is being accepted (R50): those the host supplied, else the free value of
the engine's environment (log entries 4 and 23). -/
def State.inputContents (s : State) : List Byte :=
  match s.nextInput with
  | some bs => bs
  | none => Config.unsuppliedInput s.environment s.drawCount

/-- ChanRead (R56): FAIL, or the bytes at the position, at most n, and the channel after them. A failed read consumes
nothing. -/
def chanRead (n : Nat) (ch : InputChannel) : IoDraw → Option (List Byte × InputChannel)
  | .fail _ => none
  | .ok =>
    let r := (ch.src.drop ch.pos).take n
    some (r, { ch with pos := ch.pos + r.length })

/-- How many bytes of b a ChanWrite appends when its outcome is a failure: some k with 0 ≤ k < |b| (R57). -/
def failedLength (bs : List Byte) (k : Nat) : Nat := k % bs.length

/-- The start of a stream command (R174): the counters are zero, ERR is NONE, the output channel is empty (R50), and the
supplied input has been taken. -/
def State.startStream (s : State) : State :=
  { s with
    sinBytes := 0
    soutBytes := 0
    sframes := 0
    err := .noError
    outputs := [] :: s.outputs
    nextInput := none }

/-! ### Registers -/

/-- The value a host load of a register returns (R20, R21, R61). -/
def State.readReg (s : State) : Reg → Word
  | .cmd => s.cmdLast
  | .operand => s.operand
  | .result => s.result
  | .status => s.statusWord
  | .sinBytes => s.sinBytes
  | .soutBytes => s.soutBytes
  | .sframes => s.sframes
  | .reserved => 0

/-- The host sees something. -/
def State.observe (s : State) (o : HostObs) : State := { s with observed := o :: s.observed }

/-! ### Reset -/

/-- A reset of the engine (R240, R242): every register 0, PHASE = IDLE, the channels released. What the channels hold, and
what host and environment have still to do, stays. -/
def State.resetEngine (s : State) : State :=
  { s with
    cmdLast := 0
    operand := 0
    result := 0
    err := .noError
    dclass := .clean
    syndrome := 0
    parity := false
    sinBytes := 0
    soutBytes := 0
    sframes := 0
    phase := .idle }

/-! ### Commands from outside -/

/-- The host's store of a command word to CMD (R90). -/
def storeCommand (w : Word) : HostOp := .store Reg.cmd.access w

/-- The state in which the host's next operation is the store of a command word to CMD, and the engine is idle, so that the
store is accepted (R21). -/
def State.placeCommand (s : State) (w : Word) : State :=
  { s with phase := .idle, events := .host (storeCommand w) :: s.events }

end Sys2Proof.Machine
end

