-- ==== Sys2Proof/Machine/Control.lean ====
section
/-!
DEFINITION. Engine control: NOP (R201).
-/

namespace Sys2Proof.Machine

/-- NOP (R201): STATUS.ERR <- NONE and nothing else. -/
def execNop (s : State) : Host.Outcome State Fault Refusal := .next (s.setErr .noError)

end Sys2Proof.Machine
end

