-- ==== Sys2Proof/Machine/Decoder.lean ====
section
/-!
DEFINITION. secded_decoder: DECODE (R153, R154).
-/

namespace Sys2Proof.Machine

/-- What DECODE does with the result of decode_W: SYNDROME, PARITY and DCLASS are written first, then UNCORRECTABLE is
raised or RESULT is written (R153, R154, R213). -/
def decodedCommand {d : Nat} (r : Decoded d) (s : State) : State :=
  match r.message with
  | none => (s.setDecode r.syndrome r.parity r.dclass).raise .uncorrectable
  | some m => (s.setDecode r.syndrome r.parity r.dclass).finish (m.setWidth 64)

/-- DECODE (R153, R154): the state it leaves. -/
def decodeCommand (v : Variant) (s : State) : State :=
  match codewordOperand v s with
  | none => s.raise .operandTooWide
  | some c => decodedCommand (decodeW v c) s

/-- DECODE32 (R153). -/
def execDecode32 (s : State) : Host.Outcome State Fault Refusal := .next (decodeCommand .h32 s)

/-- DECODE64 (R154). -/
def execDecode64 (s : State) : Host.Outcome State Fault Refusal := .next (decodeCommand .h64 s)

end Sys2Proof.Machine
end

