-- ==== Sys2Proof/Machine/Encoder.lean ====
section
/-!
DEFINITION. secded_encoder: ENCODE (R132, R133).
-/

namespace Sys2Proof.Machine

/-- ENCODE (R132, R133): the state it leaves. -/
def encodeCommand (v : Variant) (s : State) : State :=
  match messageOperand v s with
  | none => s.raise .inputTooWide
  | some m => s.finish ((encodeW v m).setWidth 64)

/-- ENCODE32 (R132). -/
def execEncode32 (s : State) : Host.Outcome State Fault Refusal := .next (encodeCommand .h32 s)

/-- ENCODE64 (R133). -/
def execEncode64 (s : State) : Host.Outcome State Fault Refusal := .next (encodeCommand .h64 s)

end Sys2Proof.Machine
end

