-- ==== Sys2Proof/Machine/ScatterGather.lean ====
section
/-!
DEFINITION. bit_scatter_gather: EXPAND and COMPRESS (R104 to R107).
-/

namespace Sys2Proof.Machine

/-- EXPAND (R104, R105): the state it leaves. -/
def expandCommand (v : Variant) (s : State) : State :=
  match messageOperand v s with
  | none => s.raise .inputTooWide
  | some m => s.finish ((expandW v m).setWidth 64)

/-- COMPRESS (R106, R107): the state it leaves. -/
def compressCommand (v : Variant) (s : State) : State :=
  match codewordOperand v s with
  | none => s.raise .operandTooWide
  | some c => s.finish ((compressW v c).setWidth 64)

/-- EXPAND32 (R104). -/
def execExpand32 (s : State) : Host.Outcome State Fault Refusal := .next (expandCommand .h32 s)

/-- EXPAND64 (R105). -/
def execExpand64 (s : State) : Host.Outcome State Fault Refusal := .next (expandCommand .h64 s)

/-- COMPRESS32 (R106). -/
def execCompress32 (s : State) : Host.Outcome State Fault Refusal := .next (compressCommand .h32 s)

/-- COMPRESS64 (R107). -/
def execCompress64 (s : State) : Host.Outcome State Fault Refusal := .next (compressCommand .h64 s)

end Sys2Proof.Machine
end

