-- ==== Sys2Proof/Machine/Stream.lean ====
section
/-!
DEFINITION. stream_frame_packer: the accept step of the four stream commands (R174, R181 to R184) and the engine's cycle
(R175, R176, R202).
-/

namespace Sys2Proof.Machine

/-- The accept step of a stream command (R174): the counters are cleared, ChanOpen takes its outcome, and on success PHASE
becomes `start` of the opened input channel. -/
def acceptStream (start : InputChannel → Phase) (s : State) : State :=
  match s.nextDraw with
  | .fail _ => s.startStream.takeDraw.raiseStream .ioFailure
  | .ok => { s.startStream.takeDraw with phase := start ⟨s.inputContents, 0⟩ }

/-- ENCSTREAM32 (R181), accept part. -/
def execEncstream32 (s : State) : Host.Outcome State Fault Refusal := .next (acceptStream (.encStream .h32) s)

/-- ENCSTREAM64 (R182), accept part. -/
def execEncstream64 (s : State) : Host.Outcome State Fault Refusal := .next (acceptStream (.encStream .h64) s)

/-- DECSTREAM32 (R183), accept part. -/
def execDecstream32 (s : State) : Host.Outcome State Fault Refusal := .next (acceptStream (.decStream .h32) s)

/-- DECSTREAM64 (R184), accept part. -/
def execDecstream64 (s : State) : Host.Outcome State Fault Refusal := .next (acceptStream (.decStream .h64) s)

/-- The write of a cycle (R175, R176): one ChanWrite of the whole frame b. On failure the bytes that went out stay and are
counted, and IO_FAILURE is raised; on success SOUT_BYTES and SFRAMES advance and the state is `after` of that. -/
def writeFrame (bs : List Byte) (after : State → State) (s : State) : State :=
  match s.nextDraw with
  | .fail k =>
    ((s.takeDraw.appendOutput (bs.take (failedLength bs k))).addSout (failedLength bs k)).raiseStream .ioFailure
  | .ok => after ((s.takeDraw.appendOutput bs).addSout bs.length).addFrame

/-- The end of an encode cycle whose read returned n bytes: a partial frame was the last one, else the stream goes on
(R175). -/
def afterEncode (v : Variant) (n : Nat) (ch : InputChannel) (s : State) : State :=
  if n < v.FIN then s.endStream else { s with phase := .encStream v ch }

/-- The frame of FIN bytes an encode cycle encodes: the bytes read, padded with zeros (R175). -/
def padFrame (v : Variant) (r : List Byte) : List Byte := r ++ List.replicate (v.FIN - r.length) 0

/-- The encode cycle (R175). -/
def encCycle (v : Variant) (ch : InputChannel) (s : State) : State :=
  match chanRead v.FIN ch s.nextDraw with
  | none => s.takeDraw.raiseStream .ioFailure
  | some (r, ch') =>
    if r.length = 0 then s.takeDraw.endStream
    else writeFrame (encFrame v (padFrame v r)) (afterEncode v r.length ch') (s.takeDraw.addSin r.length)

/-- The decode cycle (R176). -/
def decCycle (v : Variant) (ch : InputChannel) (s : State) : State :=
  match chanRead v.FOUT ch s.nextDraw with
  | none => s.takeDraw.raiseStream .ioFailure
  | some (r, ch') =>
    if r.length = 0 then s.takeDraw.endStream
    else if r.length < v.FOUT then (s.takeDraw.addSin r.length).raiseStream .malformedStream
    else
      match decFrame v r with
      | .uncorrectable _ => (s.takeDraw.addSin r.length).raiseStream .uncorrectable
      | .decoded bs =>
        writeFrame (trim bs) (fun t => { t with phase := .decStream v ch' }) (s.takeDraw.addSin r.length)

/-- The engine's cycle: R175 or R176 while PHASE is not IDLE, and no step of the engine while it is (R202). -/
def State.cycle (s : State) : State :=
  match s.phase with
  | .idle => s
  | .encStream v ch => encCycle v ch s
  | .decStream v ch => decCycle v ch s

end Sys2Proof.Machine
end

