-- ==== Sys2Proof/Machine/Syndrome.lean ====
section
/-!
DEFINITION. syndrome_calculator: CHECK (R123, R124).
-/

namespace Sys2Proof.Machine

/-- CHECK (R123, R124): the state it leaves. -/
def checkCommand (v : Variant) (s : State) : State :=
  match codewordOperand v s with
  | none => s.raise .operandTooWide
  | some c => (s.setCheck (checkW c) (par c)).finish ((checkW c).setWidth 64)

/-- CHECK32 (R123). -/
def execCheck32 (s : State) : Host.Outcome State Fault Refusal := .next (checkCommand .h32 s)

/-- CHECK64 (R124). -/
def execCheck64 (s : State) : Host.Outcome State Fault Refusal := .next (checkCommand .h64 s)

end Sys2Proof.Machine
end

