-- ==== Sys2Proof/Machine/Dispatch.lean ====
section
/-!
DEFINITION. The dispatch of R200: one arm per command, one direct call of its meaning.
-/

namespace Sys2Proof.Machine

/-- The part of the accept step that runs a legal command (R200). -/
def exec (i : Instr) (s : State) : Host.Outcome State Fault Refusal :=
  match i with
  | .nop => Sys2Proof.Machine.execNop s
  | .expand32 => Sys2Proof.Machine.execExpand32 s
  | .expand64 => Sys2Proof.Machine.execExpand64 s
  | .compress32 => Sys2Proof.Machine.execCompress32 s
  | .compress64 => Sys2Proof.Machine.execCompress64 s
  | .check32 => Sys2Proof.Machine.execCheck32 s
  | .check64 => Sys2Proof.Machine.execCheck64 s
  | .encode32 => Sys2Proof.Machine.execEncode32 s
  | .encode64 => Sys2Proof.Machine.execEncode64 s
  | .decode32 => Sys2Proof.Machine.execDecode32 s
  | .decode64 => Sys2Proof.Machine.execDecode64 s
  | .encstream32 => Sys2Proof.Machine.execEncstream32 s
  | .encstream64 => Sys2Proof.Machine.execEncstream64 s
  | .decstream32 => Sys2Proof.Machine.execDecstream32 s
  | .decstream64 => Sys2Proof.Machine.execDecstream64 s

end Sys2Proof.Machine
end

