-- ==== Sys2Proof/Machine/Engine.lean ====
section
/-!
DEFINITION. The steps of R202: command accept (R200), the host's operations on the register block and the channels
(R60 to R62, R90, R255), the engine's cycle and the platform's reset.
-/

namespace Sys2Proof.Machine

/-- The state in which the accept step runs the command: CMD_LAST <- w and STATUS.ERR <- NONE (R200). -/
def State.accepted (s : State) (w : Word) : State := { s with cmdLast := w, err := .noError }

/-- Command accept and dispatch (R200), for a store to CMD while PHASE is IDLE. -/
def acceptCommand (w : Word) (s : State) : Host.Outcome State Fault Refusal :=
  match decode w with
  | .ok i => exec i (s.accepted w)
  | .error _ => .next ((s.accepted w).raise .illegalCommand)

/-- A host store (R21, R61, R202): CMD is accepted, or dropped while a stream command runs; OPERAND is written; the other
registers ignore it. -/
def hostStore (r : Reg) (x : Word) (s : State) : Host.Outcome State Fault Refusal :=
  match r with
  | .cmd => if s.busy then .next s else acceptCommand x s
  | .operand => .next { s with operand := x }
  | .result => .next s
  | .status => .next s
  | .sinBytes => .next s
  | .soutBytes => .next s
  | .sframes => .next s
  | .reserved => .next s

/-- An operation of the host (R60, R90, R202, R255). While the engine is busy, `wait` stays the host's next operation and
the engine takes its next cycle. -/
def hostStep (op : HostOp) (s : State) : Host.Outcome State Fault Refusal :=
  match op with
  | .store a x =>
    match a.reg? with
    | none => .refused (.undefinedAccess a)
    | some r => hostStore r x s
  | .load a =>
    match a.reg? with
    | none => .refused (.undefinedAccess a)
    | some r => .next (s.observe (.word (s.readReg r)))
  | .wait => if s.busy then .next ({ s with events := .host .wait :: s.events }).cycle else .next s
  | .supply bs => .next { s with nextInput := some bs }
  | .supplyOutput => .next { s with nextInput := some s.lastOutput }
  | .readOutput => .next (s.observe (.bytes s.lastOutput))

/-- One event, in the state that no longer lists it (R202). -/
def eventStep (e : Event) (s : State) : Host.Outcome State Fault Refusal :=
  match e with
  | .host op => hostStep op s
  | .cycle => .next s.cycle
  | .reset => .next s.resetEngine

/-- The machine's next step: the next event, or, when the outside does nothing more, the engine's cycle, so that a busy
engine always goes on (R202, R203). -/
def nextStep (s : State) : Host.Outcome State Fault Refusal :=
  match s.events with
  | [] => .next s.cycle
  | e :: es => eventStep e { s with events := es }

/-- `n` cycles of the engine with no step of the outside between them. -/
def State.cycles (s : State) : Nat → State
  | 0 => s
  | n + 1 => (s.cycles n).cycle

end Sys2Proof.Machine
end

