-- ==== Sys2Proof/Machine/Step.lean ====
section
/-!
DEFINITION. The step of the machine, and the placing of a command where the next step takes it.
-/

namespace Sys2Proof.Machine

/-- One step of the machine (R202). -/
def step (s : State) : Host.Outcome State Fault Refusal := nextStep s

/-- The state in which the next step is the accepted store of the command word `w` of `nbits` bits to CMD (R21, R200). -/
def State.withFetchWord (s : State) (nbits w : Nat) : State :=
  s.placeCommand (BitVec.ofNat 64 (w % 2 ^ nbits))

end Sys2Proof.Machine
end

