-- ==== Sys2Proof/Machine/HostProgram.lean ====
section
/-!
DEFINITION. Host programs (R90) and the pseudo-instructions with their expansions (R91).
-/

namespace Sys2Proof.Machine

/-- A host program: the operations in program order (R64, R90). -/
abbrev HostProgram := List HostOp

/-- The form `MNEMONIC`: `st CMD, word` (R90). -/
def HostProgram.command (i : Instr) : HostProgram := [storeCommand (encode i)]

/-- `X v` for a word command X: `st OPERAND, v` and then X (R91). -/
def HostProgram.wordCommand (i : Instr) (x : Word) : HostProgram :=
  .store Reg.operand.access x :: HostProgram.command i

/-- `in = bytes`, the stream command, `wait` (R91). -/
def HostProgram.streamCommand (i : Instr) (bs : List Byte) : HostProgram :=
  .supply bs :: HostProgram.command i ++ [.wait]

/-- `encode(v)` (R91). -/
def HostProgram.encode32 (x : Word) : HostProgram := HostProgram.wordCommand .encode32 x

/-- `decode(v)` (R91). -/
def HostProgram.decode32 (x : Word) : HostProgram := HostProgram.wordCommand .decode32 x

/-- `encode64(v)` (R91). -/
def HostProgram.encode64 (x : Word) : HostProgram := HostProgram.wordCommand .encode64 x

/-- `decode64(v)` (R91). -/
def HostProgram.decode64 (x : Word) : HostProgram := HostProgram.wordCommand .decode64 x

/-- `encodeStream(bytes)` (R91). -/
def HostProgram.encodeStream32 (bs : List Byte) : HostProgram := HostProgram.streamCommand .encstream32 bs

/-- `decodeStream(bytes)` (R91). -/
def HostProgram.decodeStream32 (bs : List Byte) : HostProgram := HostProgram.streamCommand .decstream32 bs

/-- `encodeStream64(bytes)` (R91). -/
def HostProgram.encodeStream64 (bs : List Byte) : HostProgram := HostProgram.streamCommand .encstream64 bs

/-- `decodeStream64(bytes)` (R91). -/
def HostProgram.decodeStream64 (bs : List Byte) : HostProgram := HostProgram.streamCommand .decstream64 bs

/-- `CLRERR` (R91). -/
def HostProgram.clrerr : HostProgram := HostProgram.command .nop

/-- The state in which the host is about to run a program. -/
def State.withProgram (s : State) (p : HostProgram) : State := { s with events := p.map .host ++ s.events }

/-- A run of a host program has ended: the host has done its last operation and PHASE is IDLE, whatever scheduled cycles and
resets are still to come (R203). -/
def State.runEnded (s : State) : Bool := !s.events.any Event.isHost && !s.busy

/-- The outcome of a run: the registers in the order of their offsets, and the bytes of each output channel, newest first
(R203). -/
def State.outcome (s : State) : List Word × List (List Byte) :=
  ([Reg.cmd, .operand, .result, .status, .sinBytes, .soutBytes, .sframes].map s.readReg, s.outputs)

end Sys2Proof.Machine
end

