-- ==== Sys2Proof/Machine/Platform.lean ====
section
/-!
DEFINITION. A platform with several engines (R222), each with its register block at its own ENGINE_BASE, an argument here
(R6, R63). A host access at an address reaches the engine whose block holds it. The spec gives the host's address space and
ENGINE_BASE no width: that addresses have 64 bits and wrap modulo 2^64 is the model's choice (DESIGN CHOICE, log entry 22).
-/

namespace Sys2Proof.Machine

/-- One engine and the address of its register block, ENGINE_BASE (R6, R63). Its width of 64 bits is the model's choice
(DESIGN CHOICE, unsafe, log entry 22). -/
structure PlacedEngine where
  base : Word
  state : State
  deriving DecidableEq, Repr

/-- The offset of an address in the block at `base`, which is `base + 0x00` to `base + 0x3F` and nothing else (R63).
Addresses are 64 bits wide and subtracted modulo 2^64, so a block that would run past the top of the address space goes on at
address 0: the spec gives no address width, and both are the model's choice (DESIGN CHOICE, unsafe, log entry 22). -/
def blockOffset (base addr : Word) : Option Nat :=
  if (addr - base).toNat < 0x40 then some (addr - base).toNat else none

/-- A host access at an address: a load, or a store of a value, of a width in bits. -/
inductive BusOp where
  | load (width : Nat)
  | store (width : Nat) (x : Word)
  deriving DecidableEq, Repr

/-- The host operation that a bus access is for an engine, at an offset of its block. -/
def BusOp.hostOp (b : BusOp) (offset : Nat) : HostOp :=
  match b with
  | .load width => .load ⟨offset, width⟩
  | .store width x => .store ⟨offset, width⟩ x

/-- The width of a bus access in bits. -/
def BusOp.width : BusOp → Nat
  | .load width => width
  | .store width _ => width

/-- The engine's answer to an access at an address of its block: a naturally aligned access is a host operation, every other
one is refused (R60). -/
def blockStep (b : BusOp) (addr : Word) (offset : Nat) (s : State) : Host.Outcome State Fault Refusal :=
  if addr.toNat % 8 = 0 then hostStep (b.hostOp offset) s else .refused (.undefinedAccess ⟨offset, b.width⟩)

/-- An access at an address: the engine whose block holds the address takes it as a step between two of its own; the other
engines are not touched (R62, R63, R222). That the first engine listed takes it
where blocks overlap is the model's choice (DESIGN CHOICE, log entry 13). -/
def busStep (b : BusOp) (addr : Word) : List PlacedEngine → Host.Outcome (List PlacedEngine) Fault Refusal
  | [] => .refused (.outsideEveryBlock addr)
  | e :: es =>
    match blockOffset e.base addr with
    | some offset =>
      match blockStep b addr offset e.state with
      | .next t => .next ({ e with state := t } :: es)
      | .fault f => .fault f
      | .refused r => .refused r
    | none =>
      match busStep b addr es with
      | .next ts => .next (e :: ts)
      | .fault f => .fault f
      | .refused r => .refused r

/-- A step of engine number `k` of a platform (R222). -/
def engineStep (k : Nat) (es : List PlacedEngine) : Host.Outcome (List PlacedEngine) Fault Refusal :=
  match es[k]? with
  | none => .next es
  | some e =>
    match nextStep e.state with
    | .next t => .next (es.set k { e with state := t })
    | .fault f => .fault f
    | .refused r => .refused r

end Sys2Proof.Machine
end

