-- ==== Sys2Proof/Safety.lean ====
section
/-!
DEFINITION. What claims say of a run: the bytes a stream command has to produce, the invariant of a running stream command,
and which commands are word commands.
-/

namespace Sys2Proof

open Sys2Proof.Machine

/-- Frame slice j of a byte sequence cut into pieces of n bytes; the last may be shorter (R178). -/
def frameSlice (n : Nat) (bs : List Byte) (j : Nat) : List Byte := (bs.drop (j * n)).take n

/-- The encoded bytes of the first `n` frames of an input, the last padded with zeros (R175). -/
def encodedFrames (v : Variant) (src : List Byte) : Nat → List Byte
  | 0 => []
  | n + 1 => encodedFrames v src n ++ encFrame v (padFrame v (frameSlice v.FIN src n))

/-- The number of frames an input of `len` bytes is encoded to: ⌈L/FIN⌉ (R177). -/
def frameCount (v : Variant) (len : Nat) : Nat := (len + v.FIN - 1) / v.FIN

/-- The whole encoded stream of an input (R177). -/
def encodedStream (v : Variant) (src : List Byte) : List Byte := encodedFrames v src (frameCount v src.length)

/-- The decoded bytes of the first `n` frames of an encoded input, each trimmed; `none` where one has an uncorrectable
codeword (R176). -/
def decodedFrames (v : Variant) (src : List Byte) : Nat → Option (List Byte)
  | 0 => some []
  | n + 1 =>
    match decodedFrames v src n, decFrame v (frameSlice v.FOUT src n) with
    | some out, .decoded bs => some (out ++ trim bs)
    | some _, .uncorrectable _ => none
    | none, _ => none

/-- The plain bytes of the first `n` frames of an input, each padded with zeros and trimmed: what a round trip gives
back (R178). -/
def trimmedFrames (v : Variant) (src : List Byte) : Nat → List Byte
  | 0 => []
  | n + 1 => trimmedFrames v src n ++ trim (padFrame v (frameSlice v.FIN src n))

/-- The stream command that runs has done `n` whole cycles of `consumed` input bytes each, and has appended `out`: position,
counters and output agree, and no error is recorded (R27, R175, R176, R254). -/
def Machine.State.Progress (s : Machine.State) (ch : InputChannel) (consumed n : Nat) (out : List Byte) : Prop :=
  ch.pos = n * consumed ∧ ch.pos ≤ ch.src.length ∧ s.err = .noError ∧
    s.sinBytes = BitVec.ofNat 64 ch.pos ∧ s.sframes = BitVec.ofNat 64 n ∧
    s.soutBytes = BitVec.ofNat 64 out.length ∧ s.outputs.head? = some out

/-- The invariant of the machine: while a stream command runs, what it has written is exactly the encoding, or the decoding,
of the frames it has read. -/
def Machine.State.Inv (s : Machine.State) : Prop :=
  match s.phase with
  | .idle => True
  | .encStream v ch => ∃ n, s.Progress ch v.FIN n (encodedFrames v ch.src n)
  | .decStream v ch => ∃ n out, decodedFrames v ch.src n = some out ∧ s.Progress ch v.FOUT n out

/-- Command `i` is accepted as R174 says, with PHASE set to `start` of the opened input channel on success: the counters are
cleared, a new empty output channel and the supplied input are taken, ChanOpen uses one outcome, and nothing else changes. -/
def AcceptsStream (i : Instr) (start : InputChannel → Phase) : Prop :=
  ∀ s : State,
    (s.nextDraw = .ok →
      exec i s = .next
        { s with
          sinBytes := 0, soutBytes := 0, sframes := 0, err := .noError, outputs := [] :: s.outputs, nextInput := none,
          draws := s.draws.tail, drawCount := s.drawCount + 1, phase := start ⟨s.inputContents, 0⟩ }) ∧
    (∀ k, s.nextDraw = .fail k →
      exec i s = .next
        { s with
          sinBytes := 0, soutBytes := 0, sframes := 0, err := .ioFailure, outputs := [] :: s.outputs, nextInput := none,
          draws := s.draws.tail, drawCount := s.drawCount + 1, phase := .idle })

/-- The commands that complete in their accept step: all but the four stream commands (R200). -/
def Instr.isWordCommand : Instr → Bool
  | .nop => true
  | .expand32 => true
  | .expand64 => true
  | .compress32 => true
  | .compress64 => true
  | .check32 => true
  | .check64 => true
  | .encode32 => true
  | .encode64 => true
  | .decode32 => true
  | .decode64 => true
  | .encstream32 => false
  | .encstream64 => false
  | .decstream32 => false
  | .decstream64 => false

end Sys2Proof
end

