-- ==== Sys2Proof/Certificates/Slice0/Obligations.lean ====
section
/-!
DEFINITION. The statements for the provers, each from the spec. OBLIGATIONS.json lists them with their rules.
-/

open Sys2Proof Sys2Proof.Machine

/-- For every 64-bit word w and command i, the decoder reads i from w exactly when w is the word of i; and the fifteen
words are those of the table of R87, so every bit of a word is fixed and the illegal cells of the table decode to no
command. (R87) -/
def Obligations.DecodesExactlyTheOpcodeMap : Prop :=
  (∀ (w : Word) (i : Instr), decode w = .ok i ↔ w = encode i) ∧
  encode .nop = 0x00#64 ∧
  encode .expand32 = 0x01#64 ∧ encode .expand64 = 0x11#64 ∧
  encode .compress32 = 0x02#64 ∧ encode .compress64 = 0x12#64 ∧
  encode .check32 = 0x03#64 ∧ encode .check64 = 0x13#64 ∧
  encode .encode32 = 0x04#64 ∧ encode .encode64 = 0x14#64 ∧
  encode .decode32 = 0x05#64 ∧ encode .decode64 = 0x15#64 ∧
  encode .encstream32 = 0x06#64 ∧ encode .encstream64 = 0x16#64 ∧
  encode .decstream32 = 0x07#64 ∧ encode .decstream64 = 0x17#64

/-- The words 0x00, 0x01, 0x12, 0x03, 0x14, 0x05, 0x16 and 0x07 decode to NOP, EXPAND32, COMPRESS64, CHECK32, ENCODE64,
DECODE32, ENCSTREAM64 and DECSTREAM32. (30_encoding.md section 3, Opcode map) -/
def Obligations.SampleCommandWordsDecode : Prop :=
  decode 0x0000000000000000#64 = .ok .nop ∧ decode 0x0000000000000001#64 = .ok .expand32 ∧
  decode 0x0000000000000012#64 = .ok .compress64 ∧ decode 0x0000000000000003#64 = .ok .check32 ∧
  decode 0x0000000000000014#64 = .ok .encode64 ∧ decode 0x0000000000000005#64 = .ok .decode32 ∧
  decode 0x0000000000000016#64 = .ok .encstream64 ∧ decode 0x0000000000000007#64 = .ok .decstream32

/-- For every 64-bit word, the decoder rejects it exactly when bits [63:5] are not all zero, or OP is 0x8 to 0xF, or OP
= 0 and VAR = 1. (30_encoding.md section 3, illegal, reserved and hint encodings) -/
def Obligations.IllegalWordsAreRejected : Prop :=
  ∀ w : Word, (∃ e, decode w = .error e) ↔
    (w.extractLsb' 5 59 ≠ 0 ∨ 8 ≤ (w.extractLsb' 0 4).toNat ∨ (w.extractLsb' 0 4 = 0 ∧ w.getLsbD 4 = true))

/-- When the next event is a host store of w to CMD, PHASE is IDLE and w decodes to i, the step is exec of i on the
state without that event, with CMD_LAST = w and ERR = NONE; and placing the word of any command by withFetchWord
makes the next step run it so. The second clause, on withFetchWord, which makes PHASE IDLE and puts the store first,
is the model's choice and not the spec's (log entry 2, DESIGN CHOICE). (45_engine_control.md, command accept and
dispatch) -/
def Obligations.StepRunsTheDecodedCommand : Prop :=
  (∀ (s : State) (es : List Event) (w : Word) (i : Instr),
    s.events = .host (.store ⟨0x00, 64⟩ w) :: es → s.phase = .idle → decode w = .ok i →
    step s = exec i { s with events := es, cmdLast := w, err := .noError }) ∧
  (∀ (s : State) (i : Instr),
    step (s.withFetchWord 64 (encode i).toNat) =
      exec i { s with phase := .idle, cmdLast := encode i, err := .noError })

/-- When the next event is a host store to CMD of a word that R88 calls illegal and PHASE is IDLE, the step sets
CMD_LAST to the word and ERR to ILLEGAL_COMMAND (code 4), takes the event, and changes nothing else. (R212) -/
def Obligations.IllegalCommandOnlyRecordsItsError : Prop :=
  ErrCode.illegalCommand.code = 4 ∧
  ∀ (s : State) (es : List Event) (w : Word),
    s.events = .host (.store ⟨0x00, 64⟩ w) :: es → s.phase = .idle →
    (w.extractLsb' 5 59 ≠ 0 ∨ 8 ≤ (w.extractLsb' 0 4).toNat ∨ (w.extractLsb' 0 4 = 0 ∧ w.getLsbD 4 = true)) →
    step s = .next { s with events := es, cmdLast := w, err := .illegalCommand }

/-- While PHASE is not IDLE a host store of any word to CMD takes its event and changes nothing else. From an idle
state, a word command or NOP leaves the engine idle, so the next CMD store needs no wait. (70_reset_and_hazards.md
section 3, CMD while BUSY) -/
def Obligations.CommandWhileBusyIsDropped : Prop :=
  (∀ (s : State) (es : List Event) (w : Word),
    s.events = .host (.store ⟨0x00, 64⟩ w) :: es → s.phase ≠ .idle → step s = .next { s with events := es }) ∧
  (∀ (s t : State) (i : Instr), i.isWordCommand = true → s.phase = .idle → exec i s = .next t → t.phase = .idle)

/-- NOP is word 0; it answers the state with ERR = NONE and everything else as before, in every state. Stored to CMD
while idle it also sets CMD_LAST to 0. The word 0x10 is illegal and raises ILLEGAL_COMMAND. A NOP stored while the
engine is busy changes nothing. (R201) -/
def Obligations.NopClearsOnlyTheError : Prop :=
  encode .nop = 0x0000000000000000#64 ∧
  (∀ s : State, exec .nop s = .next { s with err := .noError }) ∧
  (∀ (s : State) (es : List Event), s.events = .host (.store ⟨0x00, 64⟩ 0) :: es → s.phase = .idle →
    step s = .next { s with events := es, cmdLast := 0, err := .noError }) ∧
  (∃ e, decode 0x10#64 = .error e) ∧
  (∀ (s : State) (es : List Event), s.events = .host (.store ⟨0x00, 64⟩ 0x10) :: es → s.phase = .idle →
    step s = .next { s with events := es, cmdLast := 0x10, err := .illegalCommand }) ∧
  (∀ (s : State) (es : List Event), s.events = .host (.store ⟨0x00, 64⟩ 0) :: es → s.phase ≠ .idle →
    step s = .next { s with events := es })

/-- A host store to RESULT, STATUS, SIN_BYTES, SOUT_BYTES, SFRAMES or offset 0x38 takes its event and changes nothing
else; a load from 0x38 gives the host 0; bits [3:1], [15:10], [23:22] and [63:25] of STATUS read as 0 in every
state. (R61) -/
def Obligations.ReadOnlyRegistersIgnoreStores : Prop :=
  (∀ (s : State) (es : List Event) (x : Word) (o : Nat), o ∈ [0x10, 0x18, 0x20, 0x28, 0x30, 0x38] →
    s.events = .host (.store ⟨o, 64⟩ x) :: es → step s = .next { s with events := es }) ∧
  (∀ (s : State) (es : List Event), s.events = .host (.load ⟨0x38, 64⟩) :: es →
    step s = .next { s with events := es, observed := .word 0 :: s.observed }) ∧
  (∀ s : State, s.readReg .status &&& 0xFFFFFFFFFEC0FC0E#64 = 0)

/-- In every state, busy or not: a 64-bit load at a register's offset gives the host that register's value (CMD_LAST,
OPERAND, RESULT, STATUS, SIN_BYTES, SOUT_BYTES, SFRAMES) and changes no other part of the state; a 64-bit store at
0x08 writes OPERAND and nothing else. (20_memory.md section 4, side effects and atomicity, 10_state.md section 1,
register block) -/
def Obligations.HostLoadsAndOperandStores : Prop :=
  (∀ (s : State) (es : List Event) (x : Word),
    s.events = .host (.store ⟨0x08, 64⟩ x) :: es → step s = .next { s with events := es, operand := x }) ∧
  (∀ (s : State) (es : List Event) (o : Nat) (x : Word),
    (o, x) ∈ [(0x00, s.cmdLast), (0x08, s.operand), (0x10, s.result), (0x18, s.statusWord), (0x20, s.sinBytes),
      (0x28, s.soutBytes), (0x30, s.sframes)] →
    s.events = .host (.load ⟨o, 64⟩) :: es →
    step s = .next { s with events := es, observed := .word x :: s.observed })

/-- A host load or store of 64 bits at an offset below 0x40 that is a multiple of 8 gives a next state, whatever the
state and value; of any other width or at any other offset, the step is refused as an undefined access. (R60) -/
def Obligations.UndefinedAccessesAreRefused : Prop :=
  ∀ (s : State) (es : List Event) (a : Access) (x : Word),
    s.events = .host (.store a x) :: es ∨ s.events = .host (.load a) :: es →
    (a.width = 64 ∧ a.offset % 8 = 0 ∧ a.offset < 0x40 → ∃ t, step s = .next t) ∧
    (¬ (a.width = 64 ∧ a.offset % 8 = 0 ∧ a.offset < 0x40) → step s = .refused (.undefinedAccess a))

/-- In every state, bit 0 of STATUS is 1 exactly when PHASE is not IDLE, [7:4] is the ERR code, [9:8] the DCLASS code,
[21:16] SYNDROME and [24] PARITY; the ERR codes of NONE, INPUT_TOO_WIDE, UNCORRECTABLE, IO_FAILURE, ILLEGAL_COMMAND,
OPERAND_TOO_WIDE and MALFORMED_STREAM are 0 to 6. (10_state.md section 1, STATUS fields and STATUS.ERR codes) -/
def Obligations.StatusWordLayout : Prop :=
  (∀ s : State,
    (s.statusWord.getLsbD 0 = true ↔ s.phase ≠ .idle) ∧
    s.statusWord.extractLsb' 4 4 = s.err.code ∧
    s.statusWord.extractLsb' 8 2 = s.dclass.code ∧
    s.statusWord.extractLsb' 16 6 = s.syndrome ∧
    s.statusWord.getLsbD 24 = s.parity) ∧
  ErrCode.noError.code = 0 ∧ ErrCode.inputTooWide.code = 1 ∧ ErrCode.uncorrectable.code = 2 ∧
  ErrCode.ioFailure.code = 3 ∧ ErrCode.illegalCommand.code = 4 ∧ ErrCode.operandTooWide.code = 5 ∧
  ErrCode.malformedStream.code = 6

/-- A scheduled cycle is the engine's cycle; when no event is left the step is the engine's cycle; a waiting host stays
and the engine takes its cycle while busy, and the wait ends when it is idle; a cycle of an idle engine changes
nothing. That a busy engine goes on when no event is left (the coding of weak fairness), that wait keeps its place,
and that an idle engine stutters, are the model's choices (log entries 16, 7 and 12, DESIGN CHOICE).
(45_engine_control.md, step relation, fairness and the end of a run, 30_encoding.md section 4, host program syntax) -/
def Obligations.SchedulerSteps : Prop :=
  (∀ (s : State) (es : List Event), s.events = .cycle :: es → step s = .next ({ s with events := es } : State).cycle) ∧
  (∀ s : State, s.events = [] → step s = .next s.cycle) ∧
  (∀ (s : State) (es : List Event), s.events = .host .wait :: es → s.phase ≠ .idle → step s = .next s.cycle) ∧
  (∀ (s : State) (es : List Event), s.events = .host .wait :: es → s.phase = .idle →
    step s = .next { s with events := es }) ∧
  (∀ s : State, s.phase = .idle → s.cycle = s)

/-- In every state, supplying bytes, supplying the last output and reading the last output set only the next command's
input or what the host has seen. The last output is the newest output channel's bytes, and no byte before any stream
command. That the host's reads are kept in a list, and that the last output is empty before any stream command, are
the model's choices (log entries 8 and 18, DESIGN CHOICE). (30_encoding.md section 4, host program syntax,
70_reset_and_hazards.md section 3, host duties and liberties) -/
def Obligations.HostChannelOperations : Prop :=
  (∀ (s : State) (es : List Event) (bs : List Byte), s.events = .host (.supply bs) :: es →
    step s = .next { s with events := es, nextInput := some bs }) ∧
  (∀ (s : State) (es : List Event), s.events = .host .supplyOutput :: es →
    step s = .next { s with events := es, nextInput := some (s.outputs.headD []) }) ∧
  (∀ (s : State) (es : List Event), s.events = .host .readOutput :: es →
    step s = .next { s with events := es, observed := .bytes (s.outputs.headD []) :: s.observed })

/-- For both variants, the position of message bit i is the table's; it is a data position below W, positions ascend
with i, every data position is the position of some message bit, and there are exactly D of them. (R82) -/
def Obligations.DataPositionsAscend : Prop :=
  (dataPos 0 = 3 ∧ dataPos 1 = 5 ∧ dataPos 2 = 6 ∧ dataPos 3 = 7 ∧
    (∀ i, 4 ≤ i → i ≤ 10 → dataPos i = i + 5) ∧ (∀ i, 11 ≤ i → i ≤ 25 → dataPos i = i + 6) ∧
    (∀ i, 26 ≤ i → i ≤ 56 → dataPos i = i + 7)) ∧
  ∀ v : Variant,
    (∀ i, i < v.D → dataPos i < v.W ∧ v.pmask.getLsbD (dataPos i) = false) ∧
    (∀ i j, i < j → j < v.D → dataPos i < dataPos j) ∧
    (∀ k, k < v.W → v.pmask.getLsbD k = false → ∃ i, i < v.D ∧ dataPos i = k)

/-- For both variants and every message of D bits, bit pos(i) of the expanded word is message bit i for every i below D,
and every parity position of it is 0. (40_bit_scatter_gather.md section 1, expand) -/
def Obligations.ExpandPlacesMessageBits : Prop :=
  ∀ (v : Variant) (m : BitVec v.D),
    (∀ i, i < v.D → (expandW v m).getLsbD (dataPos i) = m.getLsbD i) ∧
    (∀ k, v.pmask.getLsbD k = true → (expandW v m).getLsbD k = false)

/-- For both variants and every word of W bits, bit i of the compressed message is the word's bit pos(i) for every i
below D, and the message is the same for the word with its parity positions cleared. (R101) -/
def Obligations.CompressReadsDataPositions : Prop :=
  ∀ (v : Variant) (c : BitVec v.W),
    (∀ i, i < v.D → (compressW v c).getLsbD i = c.getLsbD (dataPos i)) ∧
    compressW v c = compressW v (c &&& v.dmask)

/-- For both variants: an expanded word has zero parity positions; compress of expand is the message; expand of compress
is the word with its parity positions cleared; and each word with zero parity positions is the expansion of exactly
one message. (R102) -/
def Obligations.ScatterGatherAreInverse : Prop :=
  ∀ v : Variant,
    (∀ m : BitVec v.D, expandW v m &&& v.pmask = 0) ∧
    (∀ m : BitVec v.D, compressW v (expandW v m) = m) ∧
    (∀ c : BitVec v.W, expandW v (compressW v c) = c &&& v.dmask) ∧
    (∀ c : BitVec v.W, c &&& v.pmask = 0 → ∃ m : BitVec v.D, expandW v m = c ∧ ∀ m', expandW v m' = c → m' = m)

/-- For both variants and every word of W bits, check is the XOR over the list of the indices below W whose bit is set,
it is below W, and flipping bit 0 does not change it. (R120) -/
def Obligations.SyndromeIsXorOfSetIndices : Prop :=
  ∀ (v : Variant) (c : BitVec v.W),
    checkW c = ((List.range v.W).filter (fun i => c.getLsbD i)).foldl (fun acc i => acc ^^^ BitVec.ofNat 6 i) 0#6 ∧
    (checkW c).toNat < v.W ∧
    checkW (c ^^^ BitVec.twoPow v.W 0) = checkW c

/-- For both variants and every word, par is true exactly when the number of indices below W whose bit is set is odd.
(41_syndrome_calculator.md section 1, par) -/
def Obligations.ParityCountsSetBits : Prop :=
  ∀ (v : Variant) (c : BitVec v.W), par c = true ↔ ((List.range v.W).filter (fun i => c.getLsbD i)).length % 2 = 1

/-- For both variants: check and par of the XOR of two words are the XORs; the word with only bit b set has syndrome b
and parity 1; so a word of syndrome 0 with bit b flipped has syndrome b. (R122) -/
def Obligations.SyndromeAndParityAreLinear : Prop :=
  ∀ v : Variant,
    (∀ a b : BitVec v.W, checkW (a ^^^ b) = checkW a ^^^ checkW b ∧ par (a ^^^ b) = (par a ^^ par b)) ∧
    (∀ b, b < v.W → checkW (BitVec.twoPow v.W b) = BitVec.ofNat 6 b ∧ par (BitVec.twoPow v.W b) = true) ∧
    (∀ (c : BitVec v.W) (b : Nat), b < v.W → checkW c = 0 → checkW (c ^^^ BitVec.twoPow v.W b) = BitVec.ofNat 6 b)

/-- For both variants and every message: the encoded word has syndrome 0 and an even number of set bits; its data
positions are those of the expanded message, so compress gives the message back; and group-parity bit 2^k is bit k
of the expanded message's syndrome. (42_secded_encoder.md section 1, laws of encode) -/
def Obligations.EncodedWordsAreValid : Prop :=
  ∀ (v : Variant) (m : BitVec v.D),
    checkW (encodeW v m) = 0 ∧
    par (encodeW v m) = false ∧
    encodeW v m &&& v.dmask = expandW v m ∧
    compressW v (encodeW v m) = m ∧
    (∀ k, k < v.groups → (encodeW v m).getLsbD (2 ^ k) = (checkW (expandW v m)).getLsbD k)

/-- For both variants: encode of the XOR of two messages is the XOR of their encodings, encode of 0 is 0, and two
messages with the same encoding are equal. (42_secded_encoder.md section 1, laws of encode) -/
def Obligations.EncodeIsLinearAndInjective : Prop :=
  ∀ v : Variant,
    (∀ a b : BitVec v.D, encodeW v (a ^^^ b) = encodeW v a ^^^ encodeW v b) ∧
    encodeW v 0 = 0 ∧
    (∀ a b : BitVec v.D, encodeW v a = encodeW v b → a = b)

/-- For both variants, the encodings of two different messages differ in at least 4 bits. The spec marks this sentence
as general knowledge and gives it as context only, so the statement is the model's consequence of the encoding, and
no rule of the spec rests on it. (42_secded_encoder.md section 1, laws of encode (minimum distance)) -/
def Obligations.CodeDistanceIsFour : Prop :=
  ∀ (v : Variant) (a b : BitVec v.D), a ≠ b → 4 ≤ popcount (encodeW v a ^^^ encodeW v b)

/-- For both variants and every word: decode yields the word's syndrome and parity; the row code is ((s != 0) << 1) | p;
with s = 0 the message is compress of the word; with s nonzero and p = 1 it is compress of the word with bit s
flipped, and s is below W; with s nonzero and p = 0 there is none. When s is a parity position the CORRECTED row
gives compress of the word. (R150) -/
def Obligations.DecodeFollowsTheDecisionTable : Prop :=
  ∀ (v : Variant) (c : BitVec v.W),
    (decodeW v c).syndrome = checkW c ∧ (decodeW v c).parity = par c ∧
    (decodeW v c).dclass.code = BitVec.ofBool (decide (checkW c ≠ 0)) ++ BitVec.ofBool (par c) ∧
    (checkW c = 0 → par c = false → (decodeW v c).dclass = .clean ∧ (decodeW v c).message = some (compressW v c)) ∧
    (checkW c = 0 → par c = true → (decodeW v c).dclass = .parityOnly ∧ (decodeW v c).message = some (compressW v c)) ∧
    (checkW c ≠ 0 → par c = true → (decodeW v c).dclass = .corrected ∧
      (decodeW v c).message = some (compressW v (c ^^^ BitVec.twoPow v.W (checkW c).toNat))) ∧
    (checkW c ≠ 0 → par c = false → (decodeW v c).dclass = .uncorrectable ∧ (decodeW v c).message = none) ∧
    (checkW c).toNat < v.W ∧
    (∀ k, k < v.groups → (checkW c).toNat = 2 ^ k → par c = true → (decodeW v c).message = some (compressW v c))

/-- For both variants and every message, decode of encode gives the message with syndrome 0, parity 0 and row CLEAN.
(43_secded_decoder.md section 1, laws of decode (round trip)) -/
def Obligations.DecodeOfEncodeIsTheMessage : Prop :=
  ∀ (v : Variant) (m : BitVec v.D),
    decodeW v (encodeW v m) = { message := some m, syndrome := 0, parity := false, dclass := .clean }

/-- For both variants, every message and every bit index b below W, decode of the codeword with bit b flipped gives the
message with syndrome b and parity 1; the row is PARITY_ONLY for b = 0 and CORRECTED otherwise.
(43_secded_decoder.md section 1, laws of decode (single-bit resilience)) -/
def Obligations.SingleErrorsAreCorrected : Prop :=
  ∀ (v : Variant) (m : BitVec v.D) (b : Nat), b < v.W →
    decodeW v (encodeW v m ^^^ BitVec.twoPow v.W b) =
      { message := some m, syndrome := BitVec.ofNat 6 b, parity := true,
        dclass := if b = 0 then .parityOnly else .corrected }

/-- For both variants, every message and every two distinct bit indices below W, decode of the codeword with both bits
flipped gives no message, row UNCORRECTABLE, parity 0 and the XOR of the two indices as a nonzero syndrome.
(43_secded_decoder.md section 1, laws of decode (double-bit detection), 90_conflicts.md C2) -/
def Obligations.DoubleErrorsAreDetected : Prop :=
  ∀ (v : Variant) (m : BitVec v.D) (b c : Nat), b < v.W → c < v.W → b ≠ c →
    decodeW v (encodeW v m ^^^ BitVec.twoPow v.W b ^^^ BitVec.twoPow v.W c) =
      { message := none, syndrome := BitVec.ofNat 6 b ^^^ BitVec.ofNat 6 c, parity := false, dclass := .uncorrectable } ∧
    BitVec.ofNat 6 b ^^^ BitVec.ofNat 6 c ≠ 0

/-- EXPAND32 is word 1. With OPERAND below 2^26 it writes RESULT with the zero-extended expanded message and ERR with
NONE; otherwise it writes ERR with INPUT_TOO_WIDE; nothing else changes. The corner cases and the example are as the
rule gives them, and RESULT[63:32] is 0. (R104) -/
def Obligations.Expand32Command : Prop :=
  encode .expand32 = 0x0000000000000001#64 ∧
  (∀ s : State, s.operand.toNat < 2 ^ 26 →
    exec .expand32 s = .next
      { s with result := (expandW .h32 (s.operand.extractLsb' 0 26)).setWidth 64, err := .noError }) ∧
  (∀ s : State, 2 ^ 26 ≤ s.operand.toNat → exec .expand32 s = .next { s with err := .inputTooWide }) ∧
  (∀ s : State, 2 ^ 26 ≤ s.operand.toNat ↔ s.operand.extractLsb' 26 38 ≠ 0) ∧
  expandW .h32 0 = 0 ∧ expandW .h32 0x3FFFFFF = 0xFFFEFEE8 ∧ expandW .h32 0x2000000 = 0x80000000 ∧
  expandW .h32 0x15 = 0x00000248 ∧
  (∀ m : BitVec 26, ((expandW .h32 m).setWidth 64).extractLsb' 32 32 = 0#32)

/-- EXPAND64 is word 0x11. With OPERAND below 2^57 it writes RESULT with the expanded message and ERR with NONE;
otherwise it writes ERR with INPUT_TOO_WIDE; nothing else changes. The corner cases and the example are as the rule
gives them. (R105) -/
def Obligations.Expand64Command : Prop :=
  encode .expand64 = 0x0000000000000011#64 ∧
  (∀ s : State, s.operand.toNat < 2 ^ 57 →
    exec .expand64 s = .next { s with result := expandW .h64 (s.operand.extractLsb' 0 57), err := .noError }) ∧
  (∀ s : State, 2 ^ 57 ≤ s.operand.toNat → exec .expand64 s = .next { s with err := .inputTooWide }) ∧
  (∀ s : State, 2 ^ 57 ≤ s.operand.toNat ↔ s.operand.extractLsb' 57 7 ≠ 0) ∧
  expandW .h64 0 = 0 ∧ expandW .h64 0x1FFFFFFFFFFFFFF = 0xFFFFFFFEFFFEFEE8 ∧
  expandW .h64 0x100000000000000 = 0x8000000000000000 ∧ dataPos 26 = 33 ∧
  expandW .h64 0xDEADBEEF = 0x0000006EAB6EDCE8

/-- COMPRESS32 is word 2. With OPERAND[63:32] = 0 it writes RESULT with the zero-extended gathered message and ERR with
NONE; otherwise it writes ERR with OPERAND_TOO_WIDE; nothing else changes. The corner cases and the example are as
the rule gives them, and a written RESULT is below 2^26. (R106) -/
def Obligations.Compress32Command : Prop :=
  encode .compress32 = 0x0000000000000002#64 ∧
  (∀ s : State, s.operand.extractLsb' 32 32 = 0 →
    exec .compress32 s = .next
      { s with result := (compressW .h32 (s.operand.extractLsb' 0 32)).setWidth 64, err := .noError }) ∧
  (∀ s : State, s.operand.extractLsb' 32 32 ≠ 0 → exec .compress32 s = .next { s with err := .operandTooWide }) ∧
  (∀ s : State, s.operand.extractLsb' 32 32 ≠ 0 ↔ 2 ^ 32 ≤ s.operand.toNat) ∧
  compressW .h32 0x00010117 = 0 ∧ compressW .h32 0xFFFFFFFF = 0x3FFFFFF ∧ compressW .h32 0x80000000 = 0x2000000 ∧
  compressW .h32 0x00000359 = 0x15 ∧ encodeW .h32 0x15 = 0x00000359 ∧
  (∀ c : BitVec 32, (((compressW .h32 c).setWidth 64 : Word)).toNat < 2 ^ 26)

/-- COMPRESS64 is word 0x12. In every state it writes RESULT with the zero-extended gathered message of OPERAND and ERR
with NONE, and changes nothing else. The corner cases and the example are as the rule gives them, and RESULT is
below 2^57. (R107) -/
def Obligations.Compress64Command : Prop :=
  encode .compress64 = 0x0000000000000012#64 ∧
  (∀ s : State,
    exec .compress64 s = .next { s with result := (compressW .h64 s.operand).setWidth 64, err := .noError }) ∧
  compressW .h64 0x0000000100010117 = 0 ∧ compressW .h64 0xFFFFFFFFFFFFFFFF = 0x1FFFFFFFFFFFFFF ∧
  compressW .h64 0x0000000100000000 = 0 ∧ compressW .h64 0x0000000200000000 = 0x4000000 ∧
  compressW .h64 0x0000006FAB6EDCEF = 0xDEADBEEF ∧ encodeW .h64 0xDEADBEEF = 0x0000006FAB6EDCEF ∧
  (∀ c : BitVec 64, (((compressW .h64 c).setWidth 64 : Word)).toNat < 2 ^ 57)

/-- CHECK32 is word 3. With OPERAND below 2^32 it writes SYNDROME and RESULT with check of the word, PARITY with its
parity and ERR with NONE; otherwise ERR with OPERAND_TOO_WIDE; nothing else changes, DCLASS included. The corner
cases and the example are as the rule gives them, and a written RESULT is below 32. (R123) -/
def Obligations.Check32Command : Prop :=
  encode .check32 = 0x0000000000000003#64 ∧
  (∀ s : State, s.operand.extractLsb' 32 32 = 0 →
    exec .check32 s = .next
      { s with
        result := (checkW (s.operand.extractLsb' 0 32)).setWidth 64, syndrome := checkW (s.operand.extractLsb' 0 32),
        parity := par (s.operand.extractLsb' 0 32), err := .noError }) ∧
  (∀ s : State, s.operand.extractLsb' 32 32 ≠ 0 → exec .check32 s = .next { s with err := .operandTooWide }) ∧
  (∀ s : State, s.operand.extractLsb' 32 32 ≠ 0 ↔ 2 ^ 32 ≤ s.operand.toNat) ∧
  checkW 0#32 = 0 ∧ par 0#32 = false ∧ checkW 1#32 = 0 ∧ par 1#32 = true ∧
  checkW 0xFFFFFFFF#32 = 0 ∧ par 0xFFFFFFFF#32 = false ∧ checkW 0x80000000#32 = 31 ∧ par 0x80000000#32 = true ∧
  checkW 0x00010117#32 = 31 ∧ par 0x00010117#32 = false ∧ encodeW .h32 0x3FFFFFF = 0xFFFFFFFF ∧
  (∀ c : BitVec 32, (checkW c).toNat < 32)

/-- CHECK64 is word 0x13. In every state it writes SYNDROME and RESULT with check of OPERAND, PARITY with its parity and
ERR with NONE, and changes nothing else. The corner cases and the example are as the rule gives them, and RESULT is
below 64. (R124) -/
def Obligations.Check64Command : Prop :=
  encode .check64 = 0x0000000000000013#64 ∧
  (∀ s : State,
    exec .check64 s = .next
      { s with
        result := (checkW s.operand).setWidth 64, syndrome := checkW s.operand, parity := par s.operand,
        err := .noError }) ∧
  checkW 0#64 = 0 ∧ par 0#64 = false ∧ checkW 0xFFFFFFFFFFFFFFFF#64 = 0 ∧ par 0xFFFFFFFFFFFFFFFF#64 = false ∧
  checkW 0x8000000000000000#64 = 63 ∧ par 0x8000000000000000#64 = true ∧
  checkW 0x0000000100000000#64 = 32 ∧ par 0x0000000100000000#64 = true ∧
  checkW 0x0000000100010117#64 = 63 ∧ par 0x0000000100010117#64 = true ∧
  checkW 0x0000006FAB6EDCEF#64 = 0 ∧ par 0x0000006FAB6EDCEF#64 = false ∧
  encodeW .h64 0xDEADBEEF = 0x0000006FAB6EDCEF ∧
  (∀ c : BitVec 64, (((checkW c).setWidth 64 : Word)).toNat < 64)

/-- ENCODE32 is word 4. With OPERAND below 2^26 it writes RESULT with the zero-extended codeword and ERR with NONE;
otherwise it writes ERR with INPUT_TOO_WIDE; nothing else changes, SYNDROME, PARITY and DCLASS included. The corner
cases and the example are as the rule gives them. (R132) -/
def Obligations.Encode32Command : Prop :=
  encode .encode32 = 0x0000000000000004#64 ∧
  (∀ s : State, s.operand.toNat < 2 ^ 26 →
    exec .encode32 s = .next
      { s with result := (encodeW .h32 (s.operand.extractLsb' 0 26)).setWidth 64, err := .noError }) ∧
  (∀ s : State, 2 ^ 26 ≤ s.operand.toNat → exec .encode32 s = .next { s with err := .inputTooWide }) ∧
  encodeW .h32 0 = 0 ∧ encodeW .h32 1 = 0x0000000F ∧ encodeW .h32 0x2000000 = 0x80010116 ∧
  encodeW .h32 0x3FFFFFF = 0xFFFFFFFF

/-- ENCODE64 is word 0x14. With OPERAND below 2^57 it writes RESULT with the codeword and ERR with NONE; otherwise it
writes ERR with INPUT_TOO_WIDE; nothing else changes. The corner cases and the example are as the rule gives them.
(R133) -/
def Obligations.Encode64Command : Prop :=
  encode .encode64 = 0x0000000000000014#64 ∧
  (∀ s : State, s.operand.toNat < 2 ^ 57 →
    exec .encode64 s = .next { s with result := encodeW .h64 (s.operand.extractLsb' 0 57), err := .noError }) ∧
  (∀ s : State, 2 ^ 57 ≤ s.operand.toNat → exec .encode64 s = .next { s with err := .inputTooWide }) ∧
  encodeW .h64 0 = 0 ∧ encodeW .h64 1 = 0x000000000000000F ∧ encodeW .h64 0x100000000000000 = 0x8000000100010117 ∧
  checkW (expandW .h64 0x100000000000000) = 63 ∧
  encodeW .h64 0x1FFFFFFFFFFFFFF = 0xFFFFFFFFFFFFFFFF ∧ encodeW .h64 0xDEADBEEF = 0x0000006FAB6EDCEF

/-- DECODE32 is word 5. With OPERAND[63:32] = 0 it writes SYNDROME, PARITY and DCLASS from decode of the word and then,
where decode gives a message, RESULT with it and ERR with NONE, and where it gives none (syndrome nonzero, parity
0), ERR with UNCORRECTABLE. Otherwise it writes ERR with OPERAND_TOO_WIDE. Nothing else changes. The corner cases
and the examples are as the rule gives them. (R153) -/
def Obligations.Decode32Command : Prop :=
  encode .decode32 = 0x0000000000000005#64 ∧
  (∀ (s : State) (m : BitVec 26), s.operand.extractLsb' 32 32 = 0 → (decodeW .h32 (s.operand.extractLsb' 0 32)).message = some m →
    exec .decode32 s = .next
      { s with
        syndrome := (decodeW .h32 (s.operand.extractLsb' 0 32)).syndrome, parity := (decodeW .h32 (s.operand.extractLsb' 0 32)).parity,
        dclass := (decodeW .h32 (s.operand.extractLsb' 0 32)).dclass, result := m.setWidth 64, err := .noError }) ∧
  (∀ s : State, s.operand.extractLsb' 32 32 = 0 → (decodeW .h32 (s.operand.extractLsb' 0 32)).message = none →
    exec .decode32 s = .next
      { s with
        syndrome := (decodeW .h32 (s.operand.extractLsb' 0 32)).syndrome, parity := (decodeW .h32 (s.operand.extractLsb' 0 32)).parity,
        dclass := .uncorrectable, err := .uncorrectable }) ∧
  (∀ c : BitVec 32, (decodeW .h32 c).message = none ↔ checkW c ≠ 0 ∧ par c = false) ∧

  (∀ s : State, s.operand.extractLsb' 32 32 ≠ 0 → exec .decode32 s = .next { s with err := .operandTooWide }) ∧
  (∀ s : State, s.operand.extractLsb' 32 32 ≠ 0 ↔ 2 ^ 32 ≤ s.operand.toNat) ∧
  decodeW .h32 0 = ⟨some 0, 0, false, .clean⟩ ∧ decodeW .h32 1 = ⟨some 0, 0, true, .parityOnly⟩ ∧
  decodeW .h32 0x80000000 = ⟨some 0, 31, true, .corrected⟩ ∧ decodeW .h32 0xC = ⟨none, 1, false, .uncorrectable⟩ ∧
  decodeW .h32 0xE = ⟨some 1, 0, true, .parityOnly⟩ ∧ decodeW .h32 0x8 = ⟨some 0, 3, true, .corrected⟩ ∧
  decodeW .h32 0xFFFFFFDF = ⟨some 0x3FFFFFF, 5, true, .corrected⟩ ∧
  decodeW .h32 0xFFFFFDDF = ⟨none, 12, false, .uncorrectable⟩

/-- DECODE64 is word 0x15. In every state it writes SYNDROME, PARITY and DCLASS from decode of OPERAND and then, where
decode gives a message, RESULT with it and ERR with NONE, and where it gives none (syndrome nonzero, parity 0), ERR
with UNCORRECTABLE. Nothing else changes. The corner cases and the example are as the rule gives them. (R154) -/
def Obligations.Decode64Command : Prop :=
  encode .decode64 = 0x0000000000000015#64 ∧
  (∀ (s : State) (m : BitVec 57), (decodeW .h64 s.operand).message = some m →
    exec .decode64 s = .next
      { s with
        syndrome := (decodeW .h64 s.operand).syndrome, parity := (decodeW .h64 s.operand).parity,
        dclass := (decodeW .h64 s.operand).dclass, result := m.setWidth 64, err := .noError }) ∧
  (∀ s : State, (decodeW .h64 s.operand).message = none →
    exec .decode64 s = .next
      { s with
        syndrome := (decodeW .h64 s.operand).syndrome, parity := (decodeW .h64 s.operand).parity,
        dclass := .uncorrectable, err := .uncorrectable }) ∧
  (∀ c : BitVec 64, (decodeW .h64 c).message = none ↔ checkW c ≠ 0 ∧ par c = false) ∧

  decodeW .h64 0 = ⟨some 0, 0, false, .clean⟩ ∧
  decodeW .h64 0xFFFFFFFFFFFFFFFF = ⟨some 0x1FFFFFFFFFFFFFF, 0, false, .clean⟩ ∧
  decodeW .h64 0x8000000000000000 = ⟨some 0, 63, true, .corrected⟩ ∧
  decodeW .h64 0x0000000100000000 = ⟨some 0, 32, true, .corrected⟩ ∧
  decodeW .h64 0x800000000000000E = ⟨none, 63, false, .uncorrectable⟩ ∧
  decodeW .h64 0x0000016FAB6EDCEF = ⟨some 0xDEADBEEF, 40, true, .corrected⟩

/-- For every word command and NOP and every state: exec answers a next state, and that state agrees with the old one on
everything but RESULT, ERR, SYNDROME, PARITY and DCLASS (registers, counters, PHASE, output bytes, input, host,
events and outcomes). SYNDROME and PARITY change only under CHECK and DECODE, DCLASS only under DECODE, and RESULT
not under NOP. (10_state.md section 1, STATUS fields and RESULT, 70_reset_and_hazards.md section 3, stale status
fields) -/
def Obligations.WordCommandFrame : Prop :=
  ∀ (i : Instr) (s : State), i.isWordCommand = true → ∃ t, exec i s = .next t ∧
    t = { s with result := t.result, err := t.err, syndrome := t.syndrome, parity := t.parity, dclass := t.dclass } ∧
    (i ∉ [.check32, .check64, .decode32, .decode64] → t.syndrome = s.syndrome ∧ t.parity = s.parity) ∧
    (i ∉ [.decode32, .decode64] → t.dclass = s.dclass) ∧
    (i = .nop → t.result = s.result)

/-- For every word command, state and next state with ERR not NONE: either nothing but ERR changed, or the command is a
DECODE, ERR is UNCORRECTABLE, DCLASS is the UNCORRECTABLE row and nothing but ERR, SYNDROME, PARITY and DCLASS
changed. So RESULT never changes on an error. (60_exceptions.md section 3, error entry is precise) -/
def Obligations.WordErrorsArePrecise : Prop :=
  ∀ (i : Instr) (s t : State), i.isWordCommand = true → exec i s = .next t → t.err ≠ .noError →
    t = { s with err := t.err } ∨
    ((i = .decode32 ∨ i = .decode64) ∧ t.err = .uncorrectable ∧ t.dclass = .uncorrectable ∧
      t = { s with err := .uncorrectable, syndrome := t.syndrome, parity := t.parity, dclass := .uncorrectable })

/-- For each of the four stream commands and every state: the counters become 0 and the command takes a new empty output
channel, the supplied input and one outcome; where ChanOpen succeeds, ERR is NONE and PHASE is ENCSTREAM(VAR) or
DECSTREAM(VAR) at input position 0; where it fails, ERR is IO_FAILURE and PHASE is IDLE. Nothing else changes. The
model's own, and not the spec's, are these: the input of a command for which none was supplied is a free value (log
entry 4, DESIGN CHOICE), a failed open uses up the supplied input (log entry 5, DESIGN CHOICE), and a failed open
leaves a new empty output channel as the newest one (log entry 6, DEDUCED, unsafe). (44_stream_frame_packer.md
section 2, stream accept step) -/
def Obligations.StreamCommandsAreAccepted : Prop :=
  AcceptsStream .encstream32 (.encStream .h32) ∧ AcceptsStream .encstream64 (.encStream .h64) ∧
  AcceptsStream .decstream32 (.decStream .h32) ∧ AcceptsStream .decstream64 (.decStream .h64)

/-- While PHASE is ENCSTREAM(var), with r the next FIN bytes of the input or what is left of it: a failed read ends with
IO_FAILURE and nothing consumed; an empty r ends with ERR as it was; else SIN_BYTES grows by |r| and the encoding O
of r padded with zeros to FIN bytes is written: on success all FOUT bytes are appended, SOUT_BYTES grows by FOUT,
SFRAMES by 1, and the command ends exactly when |r| < FIN; on FAIL(k) some k below FOUT bytes are appended and
counted and the command ends with IO_FAILURE. Nothing else changes. Taking k modulo FOUT from the drawn number is
the model's way to keep k in range (log entry 3). (44_stream_frame_packer.md section 2, encode cycle) -/
def Obligations.EncodeCycleEffect : Prop :=
  ∀ (v : Variant) (ch : InputChannel) (s : State), s.phase = .encStream v ch →
    ∀ r : List Byte, r = (ch.src.drop ch.pos).take v.FIN →
    (∀ k, s.nextDraw = .fail k → s.cycle =
      { s with draws := s.draws.tail, drawCount := s.drawCount + 1, err := .ioFailure, phase := .idle }) ∧
    (s.nextDraw = .ok → r = [] → s.cycle =
      { s with draws := s.draws.tail, drawCount := s.drawCount + 1, phase := .idle }) ∧
    (s.nextDraw = .ok → r ≠ [] → s.takeDraw.nextDraw = .ok → s.cycle =
      { s with
        draws := s.draws.tail.tail, drawCount := s.drawCount + 2,
        sinBytes := s.sinBytes + BitVec.ofNat 64 r.length, soutBytes := s.soutBytes + BitVec.ofNat 64 v.FOUT,
        sframes := s.sframes + 1,
        outputs := (s.lastOutput ++ encFrame v (r ++ List.replicate (v.FIN - r.length) 0)) :: s.outputs.tail,
        phase := if r.length < v.FIN then .idle else .encStream v ⟨ch.src, ch.pos + v.FIN⟩ }) ∧
    (∀ k, s.nextDraw = .ok → r ≠ [] → s.takeDraw.nextDraw = .fail k → s.cycle =
      { s with
        draws := s.draws.tail.tail, drawCount := s.drawCount + 2,
        sinBytes := s.sinBytes + BitVec.ofNat 64 r.length, soutBytes := s.soutBytes + BitVec.ofNat 64 (k % v.FOUT),
        outputs := (s.lastOutput ++ (encFrame v (r ++ List.replicate (v.FIN - r.length) 0)).take (k % v.FOUT)) ::
          s.outputs.tail,
        err := .ioFailure, phase := .idle })

/-- While PHASE is DECSTREAM(var), with r the next FOUT bytes of the input or what is left of it: a failed read ends
with IO_FAILURE and nothing consumed; an empty r ends with ERR as it was; else SIN_BYTES grows by |r|, and a shorter
r than FOUT ends with MALFORMED_STREAM, an uncorrectable codeword with UNCORRECTABLE, both with nothing written;
otherwise the trimmed decoding T is written: on success T is appended, SOUT_BYTES grows by |T|, SFRAMES by 1, and
the command goes on; on FAIL(k) some k below |T| bytes are appended and counted and it ends with IO_FAILURE. Nothing
else changes. Taking k modulo |T| from the drawn number is the model's way to keep k in range (log entry 3).
(44_stream_frame_packer.md section 2, decode cycle) -/
def Obligations.DecodeCycleEffect : Prop :=
  ∀ (v : Variant) (ch : InputChannel) (s : State), s.phase = .decStream v ch →
    ∀ r : List Byte, r = (ch.src.drop ch.pos).take v.FOUT →
    (∀ k, s.nextDraw = .fail k → s.cycle =
      { s with draws := s.draws.tail, drawCount := s.drawCount + 1, err := .ioFailure, phase := .idle }) ∧
    (s.nextDraw = .ok → r = [] → s.cycle =
      { s with draws := s.draws.tail, drawCount := s.drawCount + 1, phase := .idle }) ∧
    (s.nextDraw = .ok → r ≠ [] → r.length < v.FOUT → s.cycle =
      { s with
        draws := s.draws.tail, drawCount := s.drawCount + 1, sinBytes := s.sinBytes + BitVec.ofNat 64 r.length,
        err := .malformedStream, phase := .idle }) ∧
    (∀ k, s.nextDraw = .ok → r.length = v.FOUT → decFrame v r = .uncorrectable k → s.cycle =
      { s with
        draws := s.draws.tail, drawCount := s.drawCount + 1, sinBytes := s.sinBytes + BitVec.ofNat 64 v.FOUT,
        err := .uncorrectable, phase := .idle }) ∧
    (∀ bs, s.nextDraw = .ok → r.length = v.FOUT → decFrame v r = .decoded bs → s.takeDraw.nextDraw = .ok → s.cycle =
      { s with
        draws := s.draws.tail.tail, drawCount := s.drawCount + 2, sinBytes := s.sinBytes + BitVec.ofNat 64 v.FOUT,
        soutBytes := s.soutBytes + BitVec.ofNat 64 (trim bs).length, sframes := s.sframes + 1,
        outputs := (s.lastOutput ++ trim bs) :: s.outputs.tail,
        phase := .decStream v ⟨ch.src, ch.pos + v.FOUT⟩ }) ∧
    (∀ bs k, s.nextDraw = .ok → r.length = v.FOUT → decFrame v r = .decoded bs → s.takeDraw.nextDraw = .fail k →
      k % (trim bs).length < (trim bs).length ∧ s.cycle =
      { s with
        draws := s.draws.tail.tail, drawCount := s.drawCount + 2, sinBytes := s.sinBytes + BitVec.ofNat 64 v.FOUT,
        soutBytes := s.soutBytes + BitVec.ofNat 64 (k % (trim bs).length),
        outputs := (s.lastOutput ++ (trim bs).take (k % (trim bs).length)) :: s.outputs.tail,
        err := .ioFailure, phase := .idle })

/-- For both variants and every frame of FIN bytes: the encoded frame has FOUT bytes, its codeword k is the encoding of
window k for every k below N, and bit i of window k is bit (kD+i) mod 8 of byte (kD+i) div 8 of the frame. (R171,
R53) -/
def Obligations.EncodedFrameCodewords : Prop :=
  ∀ (v : Variant) (bs : List Byte), bs.length = v.FIN →
    (encFrame v bs).length = v.FOUT ∧
    ∀ k, k < v.N →
      codewordAt v (encFrame v bs) k = encodeW v (window v (leValue bs) k) ∧
      ∀ i, i < v.D →
        (window v (leValue bs) k).getLsbD i = (bs.getD ((k * v.D + i) / 8) 0).getLsbD ((k * v.D + i) % 8)

/-- For both variants and every byte sequence: decFrame answers Uncorrectable(k) exactly when codeword k is the first
below N that decodes to no message; and where it answers bytes, they are FIN many and their window k is the message
of codeword k for every k below N. (R172) -/
def Obligations.DecodedFrameWindows : Prop :=
  ∀ (v : Variant) (cs : List Byte),
    (∀ k, decFrame v cs = .uncorrectable k ↔
      k < v.N ∧ (decodeW v (codewordAt v cs k)).message = none ∧
        ∀ j, j < k → (decodeW v (codewordAt v cs j)).message ≠ none) ∧
    (∀ bs, decFrame v cs = .decoded bs →
      bs.length = v.FIN ∧ ∀ k, k < v.N → (decodeW v (codewordAt v cs k)).message = some (window v (leValue bs) k))

/-- For every nonempty byte sequence B of length L there is a j with 1 <= j <= L such that trim of B is its first j
bytes, every byte from j on is zero, and no smaller j of at least 1 has that property. (R173) -/
def Obligations.TrimDropsTheFinalZeroRun : Prop :=
  ∀ bs : List Byte, bs ≠ [] → ∃ j, 1 ≤ j ∧ j ≤ bs.length ∧ trim bs = bs.take j ∧
    (∀ i, j ≤ i → i < bs.length → bs.getD i 1 = 0) ∧
    (∀ j', 1 ≤ j' → j' < j → ∃ i, j' ≤ i ∧ i < bs.length ∧ bs.getD i 0 ≠ 0)

/-- For both variants and every frame of FIN bytes, decFrame of encFrame of it is the frame. (44_stream_frame_packer.md
section 1, frame geometry and functions, 43_secded_decoder.md section 1, laws of decode) -/
def Obligations.FrameRoundTrip : Prop :=
  ∀ (v : Variant) (bs : List Byte), bs.length = v.FIN → decFrame v (encFrame v bs) = .decoded bs

/-- Take a running ENCSTREAM at input position 0 with counters 0 and an empty output channel, L input bytes, and every
outcome a success. After ⌈L/FIN⌉ + 1 cycles it has ended with ERR NONE, the output channel holds the encoded frames
of the input, ⌈L/FIN⌉·FOUT bytes, and the counters hold L, that many bytes and ⌈L/FIN⌉ frames. The codeword count
⌈8L/D⌉ rounded up to a multiple of N is ⌈L/FIN⌉·N. (R177) -/
def Obligations.EncodedLength : Prop :=
  ∀ (v : Variant) (src : List Byte) (s : State) (os : List (List Byte)) (ds : List IoDraw),
    s.phase = .encStream v ⟨src, 0⟩ → s.err = .noError → s.outputs = [] :: os →
    s.sinBytes = 0 → s.soutBytes = 0 → s.sframes = 0 →
    s.draws = List.replicate (2 * frameCount v src.length + 1) .ok ++ ds →
    (s.cycles (frameCount v src.length + 1)).phase = .idle ∧
    (s.cycles (frameCount v src.length + 1)).err = .noError ∧
    (s.cycles (frameCount v src.length + 1)).outputs = encodedStream v src :: os ∧
    (encodedStream v src).length = frameCount v src.length * v.FOUT ∧
    (s.cycles (frameCount v src.length + 1)).sinBytes = BitVec.ofNat 64 src.length ∧
    (s.cycles (frameCount v src.length + 1)).soutBytes = BitVec.ofNat 64 (frameCount v src.length * v.FOUT) ∧
    (s.cycles (frameCount v src.length + 1)).sframes = BitVec.ofNat 64 (frameCount v src.length) ∧
    (((8 * src.length + v.D - 1) / v.D + v.N - 1) / v.N) * v.N = frameCount v src.length * v.N

/-- Take a running DECSTREAM at position 0 of the encoded stream of x, with an empty output channel and every outcome a
success. After ⌈L/FIN⌉ + 1 cycles it has ended with ERR NONE, and the output channel holds trim(x_0 padded) ++
trim(x_1 padded) ++ ...; that is x exactly when every slice of x has length 1 or ends in a nonzero byte. (R178) -/
def Obligations.StreamRoundTrip : Prop :=
  ∀ (v : Variant) (src : List Byte),
    (∀ (s : State) (os : List (List Byte)) (ds : List IoDraw),
      s.phase = .decStream v ⟨encodedStream v src, 0⟩ → s.err = .noError → s.outputs = [] :: os →
      s.draws = List.replicate (2 * frameCount v src.length + 1) .ok ++ ds →
      (s.cycles (frameCount v src.length + 1)).phase = .idle ∧
      (s.cycles (frameCount v src.length + 1)).err = .noError ∧
      (s.cycles (frameCount v src.length + 1)).outputs = trimmedFrames v src (frameCount v src.length) :: os) ∧
    (trimmedFrames v src (frameCount v src.length) = src ↔
      ∀ j, j < frameCount v src.length →
        (frameSlice v.FIN src j).length = 1 ∨ (frameSlice v.FIN src j).getLastD 0 ≠ 0)

/-- In every state with a running stream command: one cycle ends the command or moves the position by exactly FIN
(encode) or FOUT (decode) bytes within the input; and after ⌊rest/FIN⌋ + 1 cycles (encode) or ⌊rest/FOUT⌋ + 1
(decode), with rest the input bytes not yet read, PHASE is IDLE. (R179) -/
def Obligations.StreamsTerminate : Prop :=
  ∀ (s : State) (v : Variant) (ch : InputChannel),
    (s.phase = .encStream v ch →
      (s.cycle.phase = .idle ∨
        (s.cycle.phase = .encStream v ⟨ch.src, ch.pos + v.FIN⟩ ∧ ch.pos + v.FIN ≤ ch.src.length)) ∧
      (s.cycles ((ch.src.length - ch.pos) / v.FIN + 1)).phase = .idle) ∧
    (s.phase = .decStream v ch →
      (s.cycle.phase = .idle ∨
        (s.cycle.phase = .decStream v ⟨ch.src, ch.pos + v.FOUT⟩ ∧ ch.pos + v.FOUT ≤ ch.src.length)) ∧
      (s.cycles ((ch.src.length - ch.pos) / v.FOUT + 1)).phase = .idle)

/-- In every state, a cycle leaves CMD_LAST, OPERAND, RESULT, SYNDROME, PARITY, DCLASS, the next input, what the host
has seen and the events as they were; it only appends bytes to the newest output channel, and leaves every older
one. (20_memory.md section 3, channel primitives, 44_stream_frame_packer.md section 2, command steps) -/
def Obligations.CycleFrame : Prop :=
  ∀ s : State,
    s.cycle =
      { s with
        sinBytes := s.cycle.sinBytes, soutBytes := s.cycle.soutBytes, sframes := s.cycle.sframes, err := s.cycle.err,
        phase := s.cycle.phase, outputs := s.cycle.outputs, draws := s.cycle.draws, drawCount := s.cycle.drawCount } ∧
    (s.cycle.outputs = s.outputs ∨ ∃ bs, s.cycle.outputs = (s.lastOutput ++ bs) :: s.outputs.tail)

/-- From every state that meets the invariant, a step that answers a next state answers one that meets it: while a
stream command runs, ERR is NONE, the position is a whole number of frames within the input, SIN_BYTES, SOUT_BYTES
and SFRAMES count exactly what was read and written, and the newest output channel holds exactly the encoding, or
the trimmed decoding, of the frames read. (44_stream_frame_packer.md section 2, command steps, 10_state.md section
1, stream counters, 70_reset_and_hazards.md section 3, progress reads while BUSY) -/
def Obligations.StepKeepsTheStreamInvariant : Prop :=
  ∀ s t : State, s.Inv → step s = .next t → t.Inv

/-- The state right after reset meets the invariant. (10_state.md section 3, reset values) -/
def Obligations.ResetMeetsTheStreamInvariant : Prop :=
  State.reset.Inv

/-- In every state that meets the invariant, an error code other than NONE stands only while PHASE is IDLE; then an
accepted NOP clears it and changes only CMD_LAST besides. And whatever word is stored to CMD while PHASE is IDLE,
legal or not, the step answers a next state that is the same for every code that stood in ERR before, so the new
code is the outcome of that word and never the stale one. (60_exceptions.md section 3, error exit,
70_reset_and_hazards.md section 3, progress reads while BUSY) -/
def Obligations.ErrorLeavesTheEngineIdle : Prop :=
  (∀ s : State, s.Inv → s.err ≠ .noError → s.phase = .idle) ∧
  (∀ (s : State) (es : List Event), s.Inv → s.err ≠ .noError → s.events = .host (.store ⟨0x00, 64⟩ 0) :: es →
    step s = .next { s with events := es, cmdLast := 0, err := .noError }) ∧
  (∀ (s : State) (es : List Event) (w : Word), s.events = .host (.store ⟨0x00, 64⟩ w) :: es → s.phase = .idle →
    ∃ t, step s = .next t ∧ ∀ e : ErrCode, step { s with err := e } = .next t)

/-- Over every step from every state: if OPERAND changes, the step took a host store to OPERAND of the new value, or a
reset that set it to 0. No command and no cycle writes it. (10_state.md section 1, OPERAND) -/
def Obligations.OperandChangesOnlyFromOutside : Prop :=
  ∀ s t : State, step s = .next t → t.operand ≠ s.operand →
    (∃ es, s.events = .host (.store ⟨0x08, 64⟩ t.operand) :: es) ∨ (t.operand = 0 ∧ ∃ es, s.events = .reset :: es)

/-- Over every step from every state: an accepted store to CMD sets CMD_LAST to the stored word, legal or not; a reset
sets it to 0; every other step leaves it. (10_state.md section 1, CMD) -/
def Obligations.CmdLastIsTheLastAcceptedWord : Prop :=
  ∀ s t : State, step s = .next t →
    (∀ w es, s.events = .host (.store ⟨0x00, 64⟩ w) :: es → s.phase = .idle → t.cmdLast = w) ∧
    (∀ es, s.events = .reset :: es → t.cmdLast = 0) ∧
    (t.cmdLast ≠ s.cmdLast →
      (∃ w es, s.events = .host (.store ⟨0x00, 64⟩ w) :: es ∧ s.phase = .idle) ∨ (∃ es, s.events = .reset :: es))

/-- Over every step from every state: if RESULT changes, the step was a reset, or it accepted a word command other than
NOP that ended with ERR = NONE; and a command of the 32-bit variant that changes it leaves it below 2^32.
(10_state.md section 1, RESULT) -/
def Obligations.ResultChangesOnlyOnSuccess : Prop :=
  ∀ s t : State, step s = .next t → t.result ≠ s.result →
    (∃ es, s.events = .reset :: es) ∨
    (∃ i es, s.events = .host (.store ⟨0x00, 64⟩ (encode i)) :: es ∧ s.phase = .idle ∧ i.isWordCommand = true ∧
      i ≠ .nop ∧ t.err = .noError ∧ (i.var = 0 → t.result.toNat < 2 ^ 32))

/-- For every state, the step answers a next state unless the next event is a host load or store that is not a 64-bit
access at 0x00, 0x08, ..., 0x38, and then it is refused under that access. No error of a command stops the machine.
(60_exceptions.md section 3, error entry and exit, 20_memory.md section 4, alignment, widths and side effects) -/
def Obligations.StepRefusesOnlyUndefinedAccesses : Prop :=
  ∀ s : State, (∃ t, step s = .next t) ∨
    (∃ a es, a.wf = false ∧ step s = .refused (.undefinedAccess a) ∧
      (s.events = .host (.load a) :: es ∨ ∃ x, s.events = .host (.store a x) :: es))

/-- In the reset state CMD_LAST, OPERAND, RESULT, STATUS and the three counters read 0, BUSY is 0, ERR is NONE, DCLASS
is CLEAN, SYNDROME and PARITY are 0, PHASE is IDLE (so no channel handle is held), and the mask tables are the
constants of R31. (R34, R31) -/
def Obligations.ResetValues : Prop :=
  (∀ r : Reg, State.reset.readReg r = 0) ∧
  State.reset.cmdLast = 0 ∧ State.reset.operand = 0 ∧ State.reset.result = 0 ∧ State.reset.statusWord = 0 ∧
  State.reset.busy = false ∧ State.reset.err = .noError ∧ State.reset.dclass = .clean ∧ State.reset.syndrome = 0 ∧
  State.reset.parity = false ∧ State.reset.sinBytes = 0 ∧ State.reset.soutBytes = 0 ∧ State.reset.sframes = 0 ∧
  State.reset.phase = .idle ∧
  Variant.h32.pmask = 0x00010117#32 ∧ Variant.h32.dmask = 0xFFFEFEE8#32 ∧
  Variant.h64.pmask = 0x0000000100010117#64 ∧ Variant.h64.dmask = 0xFFFFFFFEFFFEFEE8#64 ∧
  (∀ (v : Variant) (k : Nat), k < v.W → (v.pmask.getLsbD k = true ↔ k = 0 ∨ ∃ j, j < v.groups ∧ k = 2 ^ j)) ∧
  (∀ v : Variant, v.dmask = ~~~ v.pmask ∧ popcount v.dmask = v.D)

/-- In every state, a reset event sets every register to its reset value and PHASE to IDLE, which releases the channels;
the output channels keep their bytes. That the supplied next input, the host's observations, the outcomes still to
come and the engine's environment stay too is the model's reading (log entry 15). (70_reset_and_hazards.md section
1, reset) -/
def Obligations.ResetDuringAStreamKeepsItsOutput : Prop :=
  ∀ (s : State) (es : List Event), s.events = .reset :: es →
    step s = .next
      { State.reset with
        outputs := s.outputs, nextInput := s.nextInput, observed := s.observed, events := es, draws := s.draws,
        drawCount := s.drawCount, environment := s.environment }

/-- On a platform of several engines: a step of engine k is its own step, on its own state, and every other engine is
unchanged; and a host access at an address changes at most the state of one engine, the first whose block of 0x40
bytes holds the address, by that engine's own host step. That the first engine listed takes an access where blocks
overlap is the model's choice (log entry 13, DESIGN CHOICE), and so are addresses of 64 bits that wrap modulo 2^64
(log entry 22, DESIGN CHOICE). (60_exceptions.md section 5, several engines, 20_memory.md section 4, address map) -/
def Obligations.EnginesShareNothing : Prop :=
  (∀ (es : List PlacedEngine) (k : Nat) (e : PlacedEngine), es[k]? = some e →
    (∀ t, step e.state = .next t → engineStep k es = .next (es.set k { e with state := t })) ∧
    (∀ es', engineStep k es = .next es' → ∀ j, j ≠ k → es'[j]? = es[j]?)) ∧
  (∀ (b : BusOp) (addr : Word) (es es' : List PlacedEngine), busStep b addr es = .next es' →
    ∃ (k : Nat) (e : PlacedEngine) (t : State), es[k]? = some e ∧ (addr - e.base).toNat < 0x40 ∧
      hostStep (b.hostOp (addr - e.base).toNat) e.state = .next t ∧ es' = es.set k { e with state := t } ∧
      ∀ (j : Nat) (e' : PlacedEngine), j < k → es[j]? = some e' → 0x40 ≤ (addr - e'.base).toNat)
end

