-- ==== Sys2Proof/Laws/Codec.lean ====
section
/-!
SUPPORT. The equations of the codec's loops and of the byte functions, one step each, and what `assignBit` does to a bit.
-/

namespace Sys2Proof.Machine

/-- `c[k] <- b` sets bit k and leaves every other bit. -/
theorem getLsbD_assignBit {w : Nat} (c : BitVec w) (k : Nat) (b : Bool) (j : Nat) :
    (assignBit c k b).getLsbD j = if j = k ∧ j < w then b else c.getLsbD j := by
  unfold assignBit
  by_cases hj : j < w <;> by_cases hk : j = k
  · subst hk
    cases b <;> simp [hj]
  · cases b <;> simp [hj, hk]
  all_goals simp [BitVec.getLsbD_of_ge _ _ (Nat.not_lt.mp hj), hj]

theorem scatter_succ {d : Nat} (w : Nat) (m : BitVec d) (n : Nat) :
    scatter w m (n + 1) = assignBit (scatter w m n) (dataPos n) (m.getLsbD n) := rfl

theorem gather_succ {w : Nat} (d : Nat) (c : BitVec w) (n : Nat) :
    gather d c (n + 1) = assignBit (gather d c n) n (c.getLsbD (dataPos n)) := rfl

theorem syndromeBelow_succ {w : Nat} (c : BitVec w) (n : Nat) :
    syndromeBelow c (n + 1) =
      if c.getLsbD n then syndromeBelow c n ^^^ BitVec.ofNat 6 n else syndromeBelow c n := rfl

theorem popcountBelow_succ {w : Nat} (c : BitVec w) (n : Nat) :
    popcountBelow c (n + 1) = popcountBelow c n + if c.getLsbD n then 1 else 0 := rfl

theorem flipGroups_succ {w : Nat} (s : BitVec 6) (c : BitVec w) (k : Nat) :
    flipGroups s c (k + 1) =
      if s.getLsbD k then flipGroups s c k ^^^ BitVec.twoPow w (2 ^ k) else flipGroups s c k := rfl

@[simp] theorem length_leBytes (x n : Nat) : (leBytes x n).length = n := by
  induction n generalizing x with
  | zero => rfl
  | succ n ih => simp [leBytes, ih]

theorem encodeWindows_succ (v : Variant) (x n : Nat) :
    encodeWindows v x (n + 1) = encodeWindows v x n ++ leBytes (encodeW v (window v x n)).toNat (v.W / 8) := rfl

@[simp] theorem trim_cons (b : Byte) (bs : List Byte) : trim (b :: bs) = b :: dropTrailingZeros bs := rfl

end Sys2Proof.Machine
end

