-- ==== Sys2Proof/Laws/State.lean ====
section
/-!
SUPPORT. What each update of the state does to each field: one lemma per field per update.
-/

namespace Sys2Proof.Machine

variable (s : State)

/-! ### setErr: `STATUS.ERR <- e` (R24) -/

@[simp] theorem State.setErr_cmdLast (e : ErrCode) : (s.setErr e).cmdLast = s.cmdLast := rfl
@[simp] theorem State.setErr_operand (e : ErrCode) : (s.setErr e).operand = s.operand := rfl
@[simp] theorem State.setErr_result (e : ErrCode) : (s.setErr e).result = s.result := rfl
@[simp] theorem State.setErr_err (e : ErrCode) : (s.setErr e).err = e := rfl
@[simp] theorem State.setErr_dclass (e : ErrCode) : (s.setErr e).dclass = s.dclass := rfl
@[simp] theorem State.setErr_syndrome (e : ErrCode) : (s.setErr e).syndrome = s.syndrome := rfl
@[simp] theorem State.setErr_parity (e : ErrCode) : (s.setErr e).parity = s.parity := rfl
@[simp] theorem State.setErr_sinBytes (e : ErrCode) : (s.setErr e).sinBytes = s.sinBytes := rfl
@[simp] theorem State.setErr_soutBytes (e : ErrCode) : (s.setErr e).soutBytes = s.soutBytes := rfl
@[simp] theorem State.setErr_sframes (e : ErrCode) : (s.setErr e).sframes = s.sframes := rfl
@[simp] theorem State.setErr_phase (e : ErrCode) : (s.setErr e).phase = s.phase := rfl
@[simp] theorem State.setErr_outputs (e : ErrCode) : (s.setErr e).outputs = s.outputs := rfl
@[simp] theorem State.setErr_nextInput (e : ErrCode) : (s.setErr e).nextInput = s.nextInput := rfl
@[simp] theorem State.setErr_observed (e : ErrCode) : (s.setErr e).observed = s.observed := rfl
@[simp] theorem State.setErr_events (e : ErrCode) : (s.setErr e).events = s.events := rfl
@[simp] theorem State.setErr_draws (e : ErrCode) : (s.setErr e).draws = s.draws := rfl
@[simp] theorem State.setErr_drawCount (e : ErrCode) : (s.setErr e).drawCount = s.drawCount := rfl
@[simp] theorem State.setErr_environment (e : ErrCode) : (s.setErr e).environment = s.environment := rfl

/-! ### raise: `raise E` in a word command (R216) -/

@[simp] theorem State.raise_cmdLast (e : ErrCode) : (s.raise e).cmdLast = s.cmdLast := rfl
@[simp] theorem State.raise_operand (e : ErrCode) : (s.raise e).operand = s.operand := rfl
@[simp] theorem State.raise_result (e : ErrCode) : (s.raise e).result = s.result := rfl
@[simp] theorem State.raise_err (e : ErrCode) : (s.raise e).err = e := rfl
@[simp] theorem State.raise_dclass (e : ErrCode) : (s.raise e).dclass = s.dclass := rfl
@[simp] theorem State.raise_syndrome (e : ErrCode) : (s.raise e).syndrome = s.syndrome := rfl
@[simp] theorem State.raise_parity (e : ErrCode) : (s.raise e).parity = s.parity := rfl
@[simp] theorem State.raise_sinBytes (e : ErrCode) : (s.raise e).sinBytes = s.sinBytes := rfl
@[simp] theorem State.raise_soutBytes (e : ErrCode) : (s.raise e).soutBytes = s.soutBytes := rfl
@[simp] theorem State.raise_sframes (e : ErrCode) : (s.raise e).sframes = s.sframes := rfl
@[simp] theorem State.raise_phase (e : ErrCode) : (s.raise e).phase = s.phase := rfl
@[simp] theorem State.raise_outputs (e : ErrCode) : (s.raise e).outputs = s.outputs := rfl
@[simp] theorem State.raise_nextInput (e : ErrCode) : (s.raise e).nextInput = s.nextInput := rfl
@[simp] theorem State.raise_observed (e : ErrCode) : (s.raise e).observed = s.observed := rfl
@[simp] theorem State.raise_events (e : ErrCode) : (s.raise e).events = s.events := rfl
@[simp] theorem State.raise_draws (e : ErrCode) : (s.raise e).draws = s.draws := rfl
@[simp] theorem State.raise_drawCount (e : ErrCode) : (s.raise e).drawCount = s.drawCount := rfl
@[simp] theorem State.raise_environment (e : ErrCode) : (s.raise e).environment = s.environment := rfl

/-! ### endStream: the end of a stream command (R175) -/

@[simp] theorem State.endStream_cmdLast : (s.endStream).cmdLast = s.cmdLast := rfl
@[simp] theorem State.endStream_operand : (s.endStream).operand = s.operand := rfl
@[simp] theorem State.endStream_result : (s.endStream).result = s.result := rfl
@[simp] theorem State.endStream_err : (s.endStream).err = s.err := rfl
@[simp] theorem State.endStream_dclass : (s.endStream).dclass = s.dclass := rfl
@[simp] theorem State.endStream_syndrome : (s.endStream).syndrome = s.syndrome := rfl
@[simp] theorem State.endStream_parity : (s.endStream).parity = s.parity := rfl
@[simp] theorem State.endStream_sinBytes : (s.endStream).sinBytes = s.sinBytes := rfl
@[simp] theorem State.endStream_soutBytes : (s.endStream).soutBytes = s.soutBytes := rfl
@[simp] theorem State.endStream_sframes : (s.endStream).sframes = s.sframes := rfl
@[simp] theorem State.endStream_phase : (s.endStream).phase = .idle := rfl
@[simp] theorem State.endStream_outputs : (s.endStream).outputs = s.outputs := rfl
@[simp] theorem State.endStream_nextInput : (s.endStream).nextInput = s.nextInput := rfl
@[simp] theorem State.endStream_observed : (s.endStream).observed = s.observed := rfl
@[simp] theorem State.endStream_events : (s.endStream).events = s.events := rfl
@[simp] theorem State.endStream_draws : (s.endStream).draws = s.draws := rfl
@[simp] theorem State.endStream_drawCount : (s.endStream).drawCount = s.drawCount := rfl
@[simp] theorem State.endStream_environment : (s.endStream).environment = s.environment := rfl

/-! ### raiseStream: `raise E` in a stream command (R216) -/

@[simp] theorem State.raiseStream_cmdLast (e : ErrCode) : (s.raiseStream e).cmdLast = s.cmdLast := rfl
@[simp] theorem State.raiseStream_operand (e : ErrCode) : (s.raiseStream e).operand = s.operand := rfl
@[simp] theorem State.raiseStream_result (e : ErrCode) : (s.raiseStream e).result = s.result := rfl
@[simp] theorem State.raiseStream_err (e : ErrCode) : (s.raiseStream e).err = e := rfl
@[simp] theorem State.raiseStream_dclass (e : ErrCode) : (s.raiseStream e).dclass = s.dclass := rfl
@[simp] theorem State.raiseStream_syndrome (e : ErrCode) : (s.raiseStream e).syndrome = s.syndrome := rfl
@[simp] theorem State.raiseStream_parity (e : ErrCode) : (s.raiseStream e).parity = s.parity := rfl
@[simp] theorem State.raiseStream_sinBytes (e : ErrCode) : (s.raiseStream e).sinBytes = s.sinBytes := rfl
@[simp] theorem State.raiseStream_soutBytes (e : ErrCode) : (s.raiseStream e).soutBytes = s.soutBytes := rfl
@[simp] theorem State.raiseStream_sframes (e : ErrCode) : (s.raiseStream e).sframes = s.sframes := rfl
@[simp] theorem State.raiseStream_phase (e : ErrCode) : (s.raiseStream e).phase = .idle := rfl
@[simp] theorem State.raiseStream_outputs (e : ErrCode) : (s.raiseStream e).outputs = s.outputs := rfl
@[simp] theorem State.raiseStream_nextInput (e : ErrCode) : (s.raiseStream e).nextInput = s.nextInput := rfl
@[simp] theorem State.raiseStream_observed (e : ErrCode) : (s.raiseStream e).observed = s.observed := rfl
@[simp] theorem State.raiseStream_events (e : ErrCode) : (s.raiseStream e).events = s.events := rfl
@[simp] theorem State.raiseStream_draws (e : ErrCode) : (s.raiseStream e).draws = s.draws := rfl
@[simp] theorem State.raiseStream_drawCount (e : ErrCode) : (s.raiseStream e).drawCount = s.drawCount := rfl
@[simp] theorem State.raiseStream_environment (e : ErrCode) : (s.raiseStream e).environment = s.environment := rfl

/-! ### finish: a successful word command (R23) -/

@[simp] theorem State.finish_cmdLast (r : Word) : (s.finish r).cmdLast = s.cmdLast := rfl
@[simp] theorem State.finish_operand (r : Word) : (s.finish r).operand = s.operand := rfl
@[simp] theorem State.finish_result (r : Word) : (s.finish r).result = r := rfl
@[simp] theorem State.finish_err (r : Word) : (s.finish r).err = .noError := rfl
@[simp] theorem State.finish_dclass (r : Word) : (s.finish r).dclass = s.dclass := rfl
@[simp] theorem State.finish_syndrome (r : Word) : (s.finish r).syndrome = s.syndrome := rfl
@[simp] theorem State.finish_parity (r : Word) : (s.finish r).parity = s.parity := rfl
@[simp] theorem State.finish_sinBytes (r : Word) : (s.finish r).sinBytes = s.sinBytes := rfl
@[simp] theorem State.finish_soutBytes (r : Word) : (s.finish r).soutBytes = s.soutBytes := rfl
@[simp] theorem State.finish_sframes (r : Word) : (s.finish r).sframes = s.sframes := rfl
@[simp] theorem State.finish_phase (r : Word) : (s.finish r).phase = s.phase := rfl
@[simp] theorem State.finish_outputs (r : Word) : (s.finish r).outputs = s.outputs := rfl
@[simp] theorem State.finish_nextInput (r : Word) : (s.finish r).nextInput = s.nextInput := rfl
@[simp] theorem State.finish_observed (r : Word) : (s.finish r).observed = s.observed := rfl
@[simp] theorem State.finish_events (r : Word) : (s.finish r).events = s.events := rfl
@[simp] theorem State.finish_draws (r : Word) : (s.finish r).draws = s.draws := rfl
@[simp] theorem State.finish_drawCount (r : Word) : (s.finish r).drawCount = s.drawCount := rfl
@[simp] theorem State.finish_environment (r : Word) : (s.finish r).environment = s.environment := rfl

/-! ### addSin: SIN_BYTES (R27) -/

@[simp] theorem State.addSin_cmdLast (n : Nat) : (s.addSin n).cmdLast = s.cmdLast := rfl
@[simp] theorem State.addSin_operand (n : Nat) : (s.addSin n).operand = s.operand := rfl
@[simp] theorem State.addSin_result (n : Nat) : (s.addSin n).result = s.result := rfl
@[simp] theorem State.addSin_err (n : Nat) : (s.addSin n).err = s.err := rfl
@[simp] theorem State.addSin_dclass (n : Nat) : (s.addSin n).dclass = s.dclass := rfl
@[simp] theorem State.addSin_syndrome (n : Nat) : (s.addSin n).syndrome = s.syndrome := rfl
@[simp] theorem State.addSin_parity (n : Nat) : (s.addSin n).parity = s.parity := rfl
@[simp] theorem State.addSin_sinBytes (n : Nat) : (s.addSin n).sinBytes = s.sinBytes + BitVec.ofNat 64 n := rfl
@[simp] theorem State.addSin_soutBytes (n : Nat) : (s.addSin n).soutBytes = s.soutBytes := rfl
@[simp] theorem State.addSin_sframes (n : Nat) : (s.addSin n).sframes = s.sframes := rfl
@[simp] theorem State.addSin_phase (n : Nat) : (s.addSin n).phase = s.phase := rfl
@[simp] theorem State.addSin_outputs (n : Nat) : (s.addSin n).outputs = s.outputs := rfl
@[simp] theorem State.addSin_nextInput (n : Nat) : (s.addSin n).nextInput = s.nextInput := rfl
@[simp] theorem State.addSin_observed (n : Nat) : (s.addSin n).observed = s.observed := rfl
@[simp] theorem State.addSin_events (n : Nat) : (s.addSin n).events = s.events := rfl
@[simp] theorem State.addSin_draws (n : Nat) : (s.addSin n).draws = s.draws := rfl
@[simp] theorem State.addSin_drawCount (n : Nat) : (s.addSin n).drawCount = s.drawCount := rfl
@[simp] theorem State.addSin_environment (n : Nat) : (s.addSin n).environment = s.environment := rfl

/-! ### addSout: SOUT_BYTES (R27) -/

@[simp] theorem State.addSout_cmdLast (n : Nat) : (s.addSout n).cmdLast = s.cmdLast := rfl
@[simp] theorem State.addSout_operand (n : Nat) : (s.addSout n).operand = s.operand := rfl
@[simp] theorem State.addSout_result (n : Nat) : (s.addSout n).result = s.result := rfl
@[simp] theorem State.addSout_err (n : Nat) : (s.addSout n).err = s.err := rfl
@[simp] theorem State.addSout_dclass (n : Nat) : (s.addSout n).dclass = s.dclass := rfl
@[simp] theorem State.addSout_syndrome (n : Nat) : (s.addSout n).syndrome = s.syndrome := rfl
@[simp] theorem State.addSout_parity (n : Nat) : (s.addSout n).parity = s.parity := rfl
@[simp] theorem State.addSout_sinBytes (n : Nat) : (s.addSout n).sinBytes = s.sinBytes := rfl
@[simp] theorem State.addSout_soutBytes (n : Nat) : (s.addSout n).soutBytes = s.soutBytes + BitVec.ofNat 64 n := rfl
@[simp] theorem State.addSout_sframes (n : Nat) : (s.addSout n).sframes = s.sframes := rfl
@[simp] theorem State.addSout_phase (n : Nat) : (s.addSout n).phase = s.phase := rfl
@[simp] theorem State.addSout_outputs (n : Nat) : (s.addSout n).outputs = s.outputs := rfl
@[simp] theorem State.addSout_nextInput (n : Nat) : (s.addSout n).nextInput = s.nextInput := rfl
@[simp] theorem State.addSout_observed (n : Nat) : (s.addSout n).observed = s.observed := rfl
@[simp] theorem State.addSout_events (n : Nat) : (s.addSout n).events = s.events := rfl
@[simp] theorem State.addSout_draws (n : Nat) : (s.addSout n).draws = s.draws := rfl
@[simp] theorem State.addSout_drawCount (n : Nat) : (s.addSout n).drawCount = s.drawCount := rfl
@[simp] theorem State.addSout_environment (n : Nat) : (s.addSout n).environment = s.environment := rfl

/-! ### addFrame: SFRAMES (R27) -/

@[simp] theorem State.addFrame_cmdLast : (s.addFrame).cmdLast = s.cmdLast := rfl
@[simp] theorem State.addFrame_operand : (s.addFrame).operand = s.operand := rfl
@[simp] theorem State.addFrame_result : (s.addFrame).result = s.result := rfl
@[simp] theorem State.addFrame_err : (s.addFrame).err = s.err := rfl
@[simp] theorem State.addFrame_dclass : (s.addFrame).dclass = s.dclass := rfl
@[simp] theorem State.addFrame_syndrome : (s.addFrame).syndrome = s.syndrome := rfl
@[simp] theorem State.addFrame_parity : (s.addFrame).parity = s.parity := rfl
@[simp] theorem State.addFrame_sinBytes : (s.addFrame).sinBytes = s.sinBytes := rfl
@[simp] theorem State.addFrame_soutBytes : (s.addFrame).soutBytes = s.soutBytes := rfl
@[simp] theorem State.addFrame_sframes : (s.addFrame).sframes = s.sframes + 1 := rfl
@[simp] theorem State.addFrame_phase : (s.addFrame).phase = s.phase := rfl
@[simp] theorem State.addFrame_outputs : (s.addFrame).outputs = s.outputs := rfl
@[simp] theorem State.addFrame_nextInput : (s.addFrame).nextInput = s.nextInput := rfl
@[simp] theorem State.addFrame_observed : (s.addFrame).observed = s.observed := rfl
@[simp] theorem State.addFrame_events : (s.addFrame).events = s.events := rfl
@[simp] theorem State.addFrame_draws : (s.addFrame).draws = s.draws := rfl
@[simp] theorem State.addFrame_drawCount : (s.addFrame).drawCount = s.drawCount := rfl
@[simp] theorem State.addFrame_environment : (s.addFrame).environment = s.environment := rfl

/-! ### takeDraw: taking an outcome (R58) -/

@[simp] theorem State.takeDraw_cmdLast : (s.takeDraw).cmdLast = s.cmdLast := rfl
@[simp] theorem State.takeDraw_operand : (s.takeDraw).operand = s.operand := rfl
@[simp] theorem State.takeDraw_result : (s.takeDraw).result = s.result := rfl
@[simp] theorem State.takeDraw_err : (s.takeDraw).err = s.err := rfl
@[simp] theorem State.takeDraw_dclass : (s.takeDraw).dclass = s.dclass := rfl
@[simp] theorem State.takeDraw_syndrome : (s.takeDraw).syndrome = s.syndrome := rfl
@[simp] theorem State.takeDraw_parity : (s.takeDraw).parity = s.parity := rfl
@[simp] theorem State.takeDraw_sinBytes : (s.takeDraw).sinBytes = s.sinBytes := rfl
@[simp] theorem State.takeDraw_soutBytes : (s.takeDraw).soutBytes = s.soutBytes := rfl
@[simp] theorem State.takeDraw_sframes : (s.takeDraw).sframes = s.sframes := rfl
@[simp] theorem State.takeDraw_phase : (s.takeDraw).phase = s.phase := rfl
@[simp] theorem State.takeDraw_outputs : (s.takeDraw).outputs = s.outputs := rfl
@[simp] theorem State.takeDraw_nextInput : (s.takeDraw).nextInput = s.nextInput := rfl
@[simp] theorem State.takeDraw_observed : (s.takeDraw).observed = s.observed := rfl
@[simp] theorem State.takeDraw_events : (s.takeDraw).events = s.events := rfl
@[simp] theorem State.takeDraw_draws : (s.takeDraw).draws = s.draws.tail := rfl
@[simp] theorem State.takeDraw_drawCount : (s.takeDraw).drawCount = s.drawCount + 1 := rfl
@[simp] theorem State.takeDraw_environment : (s.takeDraw).environment = s.environment := rfl

/-! ### appendOutput: ChanWrite (R57) -/

@[simp] theorem State.appendOutput_cmdLast (bs : List Byte) : (s.appendOutput bs).cmdLast = s.cmdLast := rfl
@[simp] theorem State.appendOutput_operand (bs : List Byte) : (s.appendOutput bs).operand = s.operand := rfl
@[simp] theorem State.appendOutput_result (bs : List Byte) : (s.appendOutput bs).result = s.result := rfl
@[simp] theorem State.appendOutput_err (bs : List Byte) : (s.appendOutput bs).err = s.err := rfl
@[simp] theorem State.appendOutput_dclass (bs : List Byte) : (s.appendOutput bs).dclass = s.dclass := rfl
@[simp] theorem State.appendOutput_syndrome (bs : List Byte) : (s.appendOutput bs).syndrome = s.syndrome := rfl
@[simp] theorem State.appendOutput_parity (bs : List Byte) : (s.appendOutput bs).parity = s.parity := rfl
@[simp] theorem State.appendOutput_sinBytes (bs : List Byte) : (s.appendOutput bs).sinBytes = s.sinBytes := rfl
@[simp] theorem State.appendOutput_soutBytes (bs : List Byte) : (s.appendOutput bs).soutBytes = s.soutBytes := rfl
@[simp] theorem State.appendOutput_sframes (bs : List Byte) : (s.appendOutput bs).sframes = s.sframes := rfl
@[simp] theorem State.appendOutput_phase (bs : List Byte) : (s.appendOutput bs).phase = s.phase := rfl
@[simp] theorem State.appendOutput_outputs (bs : List Byte) : (s.appendOutput bs).outputs = (s.lastOutput ++ bs) :: s.outputs.tail := rfl
@[simp] theorem State.appendOutput_nextInput (bs : List Byte) : (s.appendOutput bs).nextInput = s.nextInput := rfl
@[simp] theorem State.appendOutput_observed (bs : List Byte) : (s.appendOutput bs).observed = s.observed := rfl
@[simp] theorem State.appendOutput_events (bs : List Byte) : (s.appendOutput bs).events = s.events := rfl
@[simp] theorem State.appendOutput_draws (bs : List Byte) : (s.appendOutput bs).draws = s.draws := rfl
@[simp] theorem State.appendOutput_drawCount (bs : List Byte) : (s.appendOutput bs).drawCount = s.drawCount := rfl
@[simp] theorem State.appendOutput_environment (bs : List Byte) : (s.appendOutput bs).environment = s.environment := rfl

/-! ### startStream: stream accept (R174) -/

@[simp] theorem State.startStream_cmdLast : (s.startStream).cmdLast = s.cmdLast := rfl
@[simp] theorem State.startStream_operand : (s.startStream).operand = s.operand := rfl
@[simp] theorem State.startStream_result : (s.startStream).result = s.result := rfl
@[simp] theorem State.startStream_err : (s.startStream).err = .noError := rfl
@[simp] theorem State.startStream_dclass : (s.startStream).dclass = s.dclass := rfl
@[simp] theorem State.startStream_syndrome : (s.startStream).syndrome = s.syndrome := rfl
@[simp] theorem State.startStream_parity : (s.startStream).parity = s.parity := rfl
@[simp] theorem State.startStream_sinBytes : (s.startStream).sinBytes = 0 := rfl
@[simp] theorem State.startStream_soutBytes : (s.startStream).soutBytes = 0 := rfl
@[simp] theorem State.startStream_sframes : (s.startStream).sframes = 0 := rfl
@[simp] theorem State.startStream_phase : (s.startStream).phase = s.phase := rfl
@[simp] theorem State.startStream_outputs : (s.startStream).outputs = [] :: s.outputs := rfl
@[simp] theorem State.startStream_nextInput : (s.startStream).nextInput = none := rfl
@[simp] theorem State.startStream_observed : (s.startStream).observed = s.observed := rfl
@[simp] theorem State.startStream_events : (s.startStream).events = s.events := rfl
@[simp] theorem State.startStream_draws : (s.startStream).draws = s.draws := rfl
@[simp] theorem State.startStream_drawCount : (s.startStream).drawCount = s.drawCount := rfl
@[simp] theorem State.startStream_environment : (s.startStream).environment = s.environment := rfl

/-! ### observe: what the host sees (R202) -/

@[simp] theorem State.observe_cmdLast (o : HostObs) : (s.observe o).cmdLast = s.cmdLast := rfl
@[simp] theorem State.observe_operand (o : HostObs) : (s.observe o).operand = s.operand := rfl
@[simp] theorem State.observe_result (o : HostObs) : (s.observe o).result = s.result := rfl
@[simp] theorem State.observe_err (o : HostObs) : (s.observe o).err = s.err := rfl
@[simp] theorem State.observe_dclass (o : HostObs) : (s.observe o).dclass = s.dclass := rfl
@[simp] theorem State.observe_syndrome (o : HostObs) : (s.observe o).syndrome = s.syndrome := rfl
@[simp] theorem State.observe_parity (o : HostObs) : (s.observe o).parity = s.parity := rfl
@[simp] theorem State.observe_sinBytes (o : HostObs) : (s.observe o).sinBytes = s.sinBytes := rfl
@[simp] theorem State.observe_soutBytes (o : HostObs) : (s.observe o).soutBytes = s.soutBytes := rfl
@[simp] theorem State.observe_sframes (o : HostObs) : (s.observe o).sframes = s.sframes := rfl
@[simp] theorem State.observe_phase (o : HostObs) : (s.observe o).phase = s.phase := rfl
@[simp] theorem State.observe_outputs (o : HostObs) : (s.observe o).outputs = s.outputs := rfl
@[simp] theorem State.observe_nextInput (o : HostObs) : (s.observe o).nextInput = s.nextInput := rfl
@[simp] theorem State.observe_observed (o : HostObs) : (s.observe o).observed = o :: s.observed := rfl
@[simp] theorem State.observe_events (o : HostObs) : (s.observe o).events = s.events := rfl
@[simp] theorem State.observe_draws (o : HostObs) : (s.observe o).draws = s.draws := rfl
@[simp] theorem State.observe_drawCount (o : HostObs) : (s.observe o).drawCount = s.drawCount := rfl
@[simp] theorem State.observe_environment (o : HostObs) : (s.observe o).environment = s.environment := rfl

/-! ### resetEngine: reset (R240, R242) -/

@[simp] theorem State.resetEngine_cmdLast : (s.resetEngine).cmdLast = 0 := rfl
@[simp] theorem State.resetEngine_operand : (s.resetEngine).operand = 0 := rfl
@[simp] theorem State.resetEngine_result : (s.resetEngine).result = 0 := rfl
@[simp] theorem State.resetEngine_err : (s.resetEngine).err = .noError := rfl
@[simp] theorem State.resetEngine_dclass : (s.resetEngine).dclass = .clean := rfl
@[simp] theorem State.resetEngine_syndrome : (s.resetEngine).syndrome = 0 := rfl
@[simp] theorem State.resetEngine_parity : (s.resetEngine).parity = false := rfl
@[simp] theorem State.resetEngine_sinBytes : (s.resetEngine).sinBytes = 0 := rfl
@[simp] theorem State.resetEngine_soutBytes : (s.resetEngine).soutBytes = 0 := rfl
@[simp] theorem State.resetEngine_sframes : (s.resetEngine).sframes = 0 := rfl
@[simp] theorem State.resetEngine_phase : (s.resetEngine).phase = .idle := rfl
@[simp] theorem State.resetEngine_outputs : (s.resetEngine).outputs = s.outputs := rfl
@[simp] theorem State.resetEngine_nextInput : (s.resetEngine).nextInput = s.nextInput := rfl
@[simp] theorem State.resetEngine_observed : (s.resetEngine).observed = s.observed := rfl
@[simp] theorem State.resetEngine_events : (s.resetEngine).events = s.events := rfl
@[simp] theorem State.resetEngine_draws : (s.resetEngine).draws = s.draws := rfl
@[simp] theorem State.resetEngine_drawCount : (s.resetEngine).drawCount = s.drawCount := rfl
@[simp] theorem State.resetEngine_environment : (s.resetEngine).environment = s.environment := rfl

/-! ### placeCommand: placing a command (R90) -/

@[simp] theorem State.placeCommand_cmdLast (w : Word) : (s.placeCommand w).cmdLast = s.cmdLast := rfl
@[simp] theorem State.placeCommand_operand (w : Word) : (s.placeCommand w).operand = s.operand := rfl
@[simp] theorem State.placeCommand_result (w : Word) : (s.placeCommand w).result = s.result := rfl
@[simp] theorem State.placeCommand_err (w : Word) : (s.placeCommand w).err = s.err := rfl
@[simp] theorem State.placeCommand_dclass (w : Word) : (s.placeCommand w).dclass = s.dclass := rfl
@[simp] theorem State.placeCommand_syndrome (w : Word) : (s.placeCommand w).syndrome = s.syndrome := rfl
@[simp] theorem State.placeCommand_parity (w : Word) : (s.placeCommand w).parity = s.parity := rfl
@[simp] theorem State.placeCommand_sinBytes (w : Word) : (s.placeCommand w).sinBytes = s.sinBytes := rfl
@[simp] theorem State.placeCommand_soutBytes (w : Word) : (s.placeCommand w).soutBytes = s.soutBytes := rfl
@[simp] theorem State.placeCommand_sframes (w : Word) : (s.placeCommand w).sframes = s.sframes := rfl
@[simp] theorem State.placeCommand_phase (w : Word) : (s.placeCommand w).phase = .idle := rfl
@[simp] theorem State.placeCommand_outputs (w : Word) : (s.placeCommand w).outputs = s.outputs := rfl
@[simp] theorem State.placeCommand_nextInput (w : Word) : (s.placeCommand w).nextInput = s.nextInput := rfl
@[simp] theorem State.placeCommand_observed (w : Word) : (s.placeCommand w).observed = s.observed := rfl
@[simp] theorem State.placeCommand_events (w : Word) : (s.placeCommand w).events = .host (storeCommand w) :: s.events := rfl
@[simp] theorem State.placeCommand_draws (w : Word) : (s.placeCommand w).draws = s.draws := rfl
@[simp] theorem State.placeCommand_drawCount (w : Word) : (s.placeCommand w).drawCount = s.drawCount := rfl
@[simp] theorem State.placeCommand_environment (w : Word) : (s.placeCommand w).environment = s.environment := rfl

/-! ### setCheck: CHECK (R123) -/

@[simp] theorem State.setCheck_cmdLast (syn : BitVec 6) (p : Bool) : (s.setCheck syn p).cmdLast = s.cmdLast := rfl
@[simp] theorem State.setCheck_operand (syn : BitVec 6) (p : Bool) : (s.setCheck syn p).operand = s.operand := rfl
@[simp] theorem State.setCheck_result (syn : BitVec 6) (p : Bool) : (s.setCheck syn p).result = s.result := rfl
@[simp] theorem State.setCheck_err (syn : BitVec 6) (p : Bool) : (s.setCheck syn p).err = s.err := rfl
@[simp] theorem State.setCheck_dclass (syn : BitVec 6) (p : Bool) : (s.setCheck syn p).dclass = s.dclass := rfl
@[simp] theorem State.setCheck_syndrome (syn : BitVec 6) (p : Bool) : (s.setCheck syn p).syndrome = syn := rfl
@[simp] theorem State.setCheck_parity (syn : BitVec 6) (p : Bool) : (s.setCheck syn p).parity = p := rfl
@[simp] theorem State.setCheck_sinBytes (syn : BitVec 6) (p : Bool) : (s.setCheck syn p).sinBytes = s.sinBytes := rfl
@[simp] theorem State.setCheck_soutBytes (syn : BitVec 6) (p : Bool) : (s.setCheck syn p).soutBytes = s.soutBytes := rfl
@[simp] theorem State.setCheck_sframes (syn : BitVec 6) (p : Bool) : (s.setCheck syn p).sframes = s.sframes := rfl
@[simp] theorem State.setCheck_phase (syn : BitVec 6) (p : Bool) : (s.setCheck syn p).phase = s.phase := rfl
@[simp] theorem State.setCheck_outputs (syn : BitVec 6) (p : Bool) : (s.setCheck syn p).outputs = s.outputs := rfl
@[simp] theorem State.setCheck_nextInput (syn : BitVec 6) (p : Bool) : (s.setCheck syn p).nextInput = s.nextInput := rfl
@[simp] theorem State.setCheck_observed (syn : BitVec 6) (p : Bool) : (s.setCheck syn p).observed = s.observed := rfl
@[simp] theorem State.setCheck_events (syn : BitVec 6) (p : Bool) : (s.setCheck syn p).events = s.events := rfl
@[simp] theorem State.setCheck_draws (syn : BitVec 6) (p : Bool) : (s.setCheck syn p).draws = s.draws := rfl
@[simp] theorem State.setCheck_drawCount (syn : BitVec 6) (p : Bool) : (s.setCheck syn p).drawCount = s.drawCount := rfl
@[simp] theorem State.setCheck_environment (syn : BitVec 6) (p : Bool) : (s.setCheck syn p).environment = s.environment := rfl

/-! ### setDecode: DECODE (R153) -/

@[simp] theorem State.setDecode_cmdLast (syn : BitVec 6) (p : Bool) (d : DClass) : (s.setDecode syn p d).cmdLast = s.cmdLast := rfl
@[simp] theorem State.setDecode_operand (syn : BitVec 6) (p : Bool) (d : DClass) : (s.setDecode syn p d).operand = s.operand := rfl
@[simp] theorem State.setDecode_result (syn : BitVec 6) (p : Bool) (d : DClass) : (s.setDecode syn p d).result = s.result := rfl
@[simp] theorem State.setDecode_err (syn : BitVec 6) (p : Bool) (d : DClass) : (s.setDecode syn p d).err = s.err := rfl
@[simp] theorem State.setDecode_dclass (syn : BitVec 6) (p : Bool) (d : DClass) : (s.setDecode syn p d).dclass = d := rfl
@[simp] theorem State.setDecode_syndrome (syn : BitVec 6) (p : Bool) (d : DClass) : (s.setDecode syn p d).syndrome = syn := rfl
@[simp] theorem State.setDecode_parity (syn : BitVec 6) (p : Bool) (d : DClass) : (s.setDecode syn p d).parity = p := rfl
@[simp] theorem State.setDecode_sinBytes (syn : BitVec 6) (p : Bool) (d : DClass) : (s.setDecode syn p d).sinBytes = s.sinBytes := rfl
@[simp] theorem State.setDecode_soutBytes (syn : BitVec 6) (p : Bool) (d : DClass) : (s.setDecode syn p d).soutBytes = s.soutBytes := rfl
@[simp] theorem State.setDecode_sframes (syn : BitVec 6) (p : Bool) (d : DClass) : (s.setDecode syn p d).sframes = s.sframes := rfl
@[simp] theorem State.setDecode_phase (syn : BitVec 6) (p : Bool) (d : DClass) : (s.setDecode syn p d).phase = s.phase := rfl
@[simp] theorem State.setDecode_outputs (syn : BitVec 6) (p : Bool) (d : DClass) : (s.setDecode syn p d).outputs = s.outputs := rfl
@[simp] theorem State.setDecode_nextInput (syn : BitVec 6) (p : Bool) (d : DClass) : (s.setDecode syn p d).nextInput = s.nextInput := rfl
@[simp] theorem State.setDecode_observed (syn : BitVec 6) (p : Bool) (d : DClass) : (s.setDecode syn p d).observed = s.observed := rfl
@[simp] theorem State.setDecode_events (syn : BitVec 6) (p : Bool) (d : DClass) : (s.setDecode syn p d).events = s.events := rfl
@[simp] theorem State.setDecode_draws (syn : BitVec 6) (p : Bool) (d : DClass) : (s.setDecode syn p d).draws = s.draws := rfl
@[simp] theorem State.setDecode_drawCount (syn : BitVec 6) (p : Bool) (d : DClass) : (s.setDecode syn p d).drawCount = s.drawCount := rfl
@[simp] theorem State.setDecode_environment (syn : BitVec 6) (p : Bool) (d : DClass) : (s.setDecode syn p d).environment = s.environment := rfl

/-! ### accepted: command accept (R200) -/

@[simp] theorem State.accepted_cmdLast (w : Word) : (s.accepted w).cmdLast = w := rfl
@[simp] theorem State.accepted_operand (w : Word) : (s.accepted w).operand = s.operand := rfl
@[simp] theorem State.accepted_result (w : Word) : (s.accepted w).result = s.result := rfl
@[simp] theorem State.accepted_err (w : Word) : (s.accepted w).err = .noError := rfl
@[simp] theorem State.accepted_dclass (w : Word) : (s.accepted w).dclass = s.dclass := rfl
@[simp] theorem State.accepted_syndrome (w : Word) : (s.accepted w).syndrome = s.syndrome := rfl
@[simp] theorem State.accepted_parity (w : Word) : (s.accepted w).parity = s.parity := rfl
@[simp] theorem State.accepted_sinBytes (w : Word) : (s.accepted w).sinBytes = s.sinBytes := rfl
@[simp] theorem State.accepted_soutBytes (w : Word) : (s.accepted w).soutBytes = s.soutBytes := rfl
@[simp] theorem State.accepted_sframes (w : Word) : (s.accepted w).sframes = s.sframes := rfl
@[simp] theorem State.accepted_phase (w : Word) : (s.accepted w).phase = s.phase := rfl
@[simp] theorem State.accepted_outputs (w : Word) : (s.accepted w).outputs = s.outputs := rfl
@[simp] theorem State.accepted_nextInput (w : Word) : (s.accepted w).nextInput = s.nextInput := rfl
@[simp] theorem State.accepted_observed (w : Word) : (s.accepted w).observed = s.observed := rfl
@[simp] theorem State.accepted_events (w : Word) : (s.accepted w).events = s.events := rfl
@[simp] theorem State.accepted_draws (w : Word) : (s.accepted w).draws = s.draws := rfl
@[simp] theorem State.accepted_drawCount (w : Word) : (s.accepted w).drawCount = s.drawCount := rfl
@[simp] theorem State.accepted_environment (w : Word) : (s.accepted w).environment = s.environment := rfl

end Sys2Proof.Machine
end

