-- ==== Sys2Proof/Laws/Ops.lean ====
section
/-!
SUPPORT. What each shared operation does, said once: the drawn outcomes and the channel primitives (R55 to R58), the operand
forms (R85), the stream accept (R174), the cycles (R175, R176), and the steps (R200, R202).
-/

namespace Sys2Proof.Machine

/-! ### Outcomes and channels -/

theorem nextDraw_of_cons {s : State} {d : IoDraw} {ds : List IoDraw} (h : s.draws = d :: ds) : s.nextDraw = d := by
  simp [State.nextDraw, h]

theorem nextDraw_of_nil {s : State} (h : s.draws = []) : s.nextDraw = Config.ioOracle s.environment s.drawCount := by
  simp [State.nextDraw, h]

/-- A read that does not fail returns the bytes at the position, at most n, and moves past them (R56). -/
theorem chanRead_ok (n : Nat) (ch : InputChannel) :
    chanRead n ch .ok =
      some ((ch.src.drop ch.pos).take n, ⟨ch.src, ch.pos + ((ch.src.drop ch.pos).take n).length⟩) := rfl

@[simp] theorem chanRead_fail (n : Nat) (ch : InputChannel) (k : Nat) : chanRead n ch (.fail k) = none := rfl

/-- All a read can answer (R56). -/
theorem chanRead_eq_some {n : Nat} {ch ch' : InputChannel} {d : IoDraw} {r : List Byte}
    (h : chanRead n ch d = some (r, ch')) :
    d = .ok ∧ r = (ch.src.drop ch.pos).take n ∧ ch' = ⟨ch.src, ch.pos + r.length⟩ := by
  cases d with
  | fail k => cases h
  | ok =>
    rw [chanRead_ok] at h
    cases h
    exact ⟨rfl, rfl, rfl⟩

/-- A failed write appends fewer bytes than it was given (R57). -/
theorem failedLength_lt {bs : List Byte} (k : Nat) (h : bs ≠ []) : failedLength bs k < bs.length :=
  Nat.mod_lt _ (List.length_pos_iff.mpr h)

@[simp] theorem lastOutput_appendOutput (s : State) (bs : List Byte) :
    (s.appendOutput bs).lastOutput = s.lastOutput ++ bs := rfl

/-! ### Operands -/

theorem messageOperand_of_lt {v : Variant} {s : State} (h : s.operand.toNat < 2 ^ v.D) :
    messageOperand v s = some (s.operand.setWidth v.D) := if_pos h

theorem messageOperand_of_ge {v : Variant} {s : State} (h : 2 ^ v.D ≤ s.operand.toNat) :
    messageOperand v s = none := if_neg (Nat.not_lt.mpr h)

theorem codewordOperand_of_lt {v : Variant} {s : State} (h : s.operand.toNat < 2 ^ v.W) :
    codewordOperand v s = some (s.operand.setWidth v.W) := if_pos h

theorem codewordOperand_of_ge {v : Variant} {s : State} (h : 2 ^ v.W ≤ s.operand.toNat) :
    codewordOperand v s = none := if_neg (Nat.not_lt.mpr h)

/-- No 64-bit value is too wide for an H64 codeword (R211). -/
theorem codewordOperand_h64 (s : State) : codewordOperand .h64 s = some s.operand := by
  have h : s.operand.toNat < 2 ^ Variant.h64.W := s.operand.isLt
  rw [codewordOperand_of_lt h]
  exact congrArg some (BitVec.setWidth_eq s.operand)

/-! ### Word commands -/

/-- All EXPAND can do (R104, R105). -/
theorem expandCommand_cases (v : Variant) (s : State) :
    (2 ^ v.D ≤ s.operand.toNat ∧ expandCommand v s = s.raise .inputTooWide) ∨
    (s.operand.toNat < 2 ^ v.D ∧
      expandCommand v s = s.finish ((expandW v (s.operand.setWidth v.D)).setWidth 64)) := by
  by_cases h : s.operand.toNat < 2 ^ v.D
  · exact .inr ⟨h, by rw [expandCommand, messageOperand_of_lt h]⟩
  · exact .inl ⟨Nat.not_lt.mp h, by rw [expandCommand, messageOperand_of_ge (Nat.not_lt.mp h)]⟩

/-- All ENCODE can do (R132, R133). -/
theorem encodeCommand_cases (v : Variant) (s : State) :
    (2 ^ v.D ≤ s.operand.toNat ∧ encodeCommand v s = s.raise .inputTooWide) ∨
    (s.operand.toNat < 2 ^ v.D ∧
      encodeCommand v s = s.finish ((encodeW v (s.operand.setWidth v.D)).setWidth 64)) := by
  by_cases h : s.operand.toNat < 2 ^ v.D
  · exact .inr ⟨h, by rw [encodeCommand, messageOperand_of_lt h]⟩
  · exact .inl ⟨Nat.not_lt.mp h, by rw [encodeCommand, messageOperand_of_ge (Nat.not_lt.mp h)]⟩

/-- All COMPRESS can do (R106, R107). -/
theorem compressCommand_cases (v : Variant) (s : State) :
    (2 ^ v.W ≤ s.operand.toNat ∧ compressCommand v s = s.raise .operandTooWide) ∨
    (s.operand.toNat < 2 ^ v.W ∧
      compressCommand v s = s.finish ((compressW v (s.operand.setWidth v.W)).setWidth 64)) := by
  by_cases h : s.operand.toNat < 2 ^ v.W
  · exact .inr ⟨h, by rw [compressCommand, codewordOperand_of_lt h]⟩
  · exact .inl ⟨Nat.not_lt.mp h, by rw [compressCommand, codewordOperand_of_ge (Nat.not_lt.mp h)]⟩

/-- All CHECK can do (R123, R124). -/
theorem checkCommand_cases (v : Variant) (s : State) :
    (2 ^ v.W ≤ s.operand.toNat ∧ checkCommand v s = s.raise .operandTooWide) ∨
    (∃ c : BitVec v.W, s.operand.toNat < 2 ^ v.W ∧ c = s.operand.setWidth v.W ∧
      checkCommand v s = (s.setCheck (checkW c) (par c)).finish ((checkW c).setWidth 64)) := by
  by_cases h : s.operand.toNat < 2 ^ v.W
  · exact .inr ⟨_, h, rfl, by rw [checkCommand, codewordOperand_of_lt h]⟩
  · exact .inl ⟨Nat.not_lt.mp h, by rw [checkCommand, codewordOperand_of_ge (Nat.not_lt.mp h)]⟩

/-- All DECODE can do (R153, R154). -/
theorem decodeCommand_cases (v : Variant) (s : State) :
    (2 ^ v.W ≤ s.operand.toNat ∧ decodeCommand v s = s.raise .operandTooWide) ∨
    (∃ r : Decoded v.D, s.operand.toNat < 2 ^ v.W ∧ r = decodeW v (s.operand.setWidth v.W) ∧ r.message = none ∧
      decodeCommand v s = (s.setDecode r.syndrome r.parity r.dclass).raise .uncorrectable) ∨
    (∃ (r : Decoded v.D) (m : BitVec v.D), s.operand.toNat < 2 ^ v.W ∧ r = decodeW v (s.operand.setWidth v.W) ∧
      r.message = some m ∧
      decodeCommand v s = (s.setDecode r.syndrome r.parity r.dclass).finish (m.setWidth 64)) := by
  by_cases h : s.operand.toNat < 2 ^ v.W
  · cases hm : (decodeW v (s.operand.setWidth v.W)).message with
    | none => exact .inr (.inl ⟨_, h, rfl, hm, by simp only [decodeCommand, codewordOperand_of_lt h, decodedCommand, hm]⟩)
    | some m =>
      exact .inr (.inr ⟨_, m, h, rfl, hm, by simp only [decodeCommand, codewordOperand_of_lt h, decodedCommand, hm]⟩)
  · exact .inl ⟨Nat.not_lt.mp h, by rw [decodeCommand, codewordOperand_of_ge (Nat.not_lt.mp h)]⟩

/-! ### Stream accept and cycles -/

theorem acceptStream_of_ok {s : State} (start : InputChannel → Phase) (h : s.nextDraw = .ok) :
    acceptStream start s = { s.startStream.takeDraw with phase := start ⟨s.inputContents, 0⟩ } := by
  simp [acceptStream, h]

theorem acceptStream_of_fail {s : State} (start : InputChannel → Phase) {k : Nat} (h : s.nextDraw = .fail k) :
    acceptStream start s = s.startStream.takeDraw.raiseStream .ioFailure := by
  simp [acceptStream, h]

theorem writeFrame_of_ok {s : State} (bs : List Byte) (after : State → State) (h : s.nextDraw = .ok) :
    writeFrame bs after s = after ((s.takeDraw.appendOutput bs).addSout bs.length).addFrame := by
  simp [writeFrame, h]

theorem writeFrame_of_fail {s : State} (bs : List Byte) (after : State → State) {k : Nat} (h : s.nextDraw = .fail k) :
    writeFrame bs after s =
      ((s.takeDraw.appendOutput (bs.take (failedLength bs k))).addSout (failedLength bs k)).raiseStream .ioFailure := by
  simp [writeFrame, h]

/-- All the write of a cycle can do (R57, R175, R176). -/
theorem writeFrame_cases (bs : List Byte) (after : State → State) (s : State) :
    (∃ k, s.nextDraw = .fail k ∧
      writeFrame bs after s =
        ((s.takeDraw.appendOutput (bs.take (failedLength bs k))).addSout (failedLength bs k)).raiseStream .ioFailure) ∨
    (s.nextDraw = .ok ∧ writeFrame bs after s = after ((s.takeDraw.appendOutput bs).addSout bs.length).addFrame) := by
  cases h : s.nextDraw with
  | ok => exact .inr ⟨rfl, writeFrame_of_ok _ _ h⟩
  | fail k => exact .inl ⟨k, rfl, writeFrame_of_fail _ _ h⟩

/-- A padded frame of at most FIN bytes has FIN bytes (R175). -/
theorem length_padFrame {v : Variant} {r : List Byte} (h : r.length ≤ v.FIN) : (padFrame v r).length = v.FIN := by
  simp [padFrame]
  omega

/-- All an encode cycle can do (R175). -/
theorem encCycle_cases (v : Variant) (ch : InputChannel) (s : State) :
    (∃ k, s.nextDraw = .fail k ∧ encCycle v ch s = s.takeDraw.raiseStream .ioFailure) ∨
    (s.nextDraw = .ok ∧ (ch.src.drop ch.pos).take v.FIN = [] ∧ encCycle v ch s = s.takeDraw.endStream) ∨
    (∃ r, s.nextDraw = .ok ∧ r = (ch.src.drop ch.pos).take v.FIN ∧ r ≠ [] ∧
      encCycle v ch s =
        writeFrame (encFrame v (padFrame v r)) (afterEncode v r.length ⟨ch.src, ch.pos + r.length⟩)
          (s.takeDraw.addSin r.length)) := by
  cases hd : s.nextDraw with
  | fail k => exact .inl ⟨k, rfl, by simp [encCycle, hd]⟩
  | ok =>
    by_cases hr : (ch.src.drop ch.pos).take v.FIN = []
    · exact .inr (.inl ⟨rfl, hr, by simp [encCycle, hd, chanRead_ok, hr]⟩)
    · refine .inr (.inr ⟨_, rfl, rfl, hr, ?_⟩)
      have hl : ((ch.src.drop ch.pos).take v.FIN).length ≠ 0 := fun h => hr (List.length_eq_zero_iff.mp h)
      simp only [encCycle, hd, chanRead_ok, if_neg hl]

/-- All a decode cycle can do (R176). -/
theorem decCycle_cases (v : Variant) (ch : InputChannel) (s : State) :
    (∃ k, s.nextDraw = .fail k ∧ decCycle v ch s = s.takeDraw.raiseStream .ioFailure) ∨
    (s.nextDraw = .ok ∧ (ch.src.drop ch.pos).take v.FOUT = [] ∧ decCycle v ch s = s.takeDraw.endStream) ∨
    (∃ r, s.nextDraw = .ok ∧ r = (ch.src.drop ch.pos).take v.FOUT ∧ r ≠ [] ∧ r.length < v.FOUT ∧
      decCycle v ch s = (s.takeDraw.addSin r.length).raiseStream .malformedStream) ∨
    (∃ r k, s.nextDraw = .ok ∧ r = (ch.src.drop ch.pos).take v.FOUT ∧ r ≠ [] ∧ v.FOUT ≤ r.length ∧
      decFrame v r = .uncorrectable k ∧
      decCycle v ch s = (s.takeDraw.addSin r.length).raiseStream .uncorrectable) ∨
    (∃ r bs, s.nextDraw = .ok ∧ r = (ch.src.drop ch.pos).take v.FOUT ∧ r ≠ [] ∧ v.FOUT ≤ r.length ∧
      decFrame v r = .decoded bs ∧
      decCycle v ch s =
        writeFrame (trim bs) (fun t => { t with phase := .decStream v ⟨ch.src, ch.pos + r.length⟩ })
          (s.takeDraw.addSin r.length)) := by
  cases hd : s.nextDraw with
  | fail k => exact .inl ⟨k, rfl, by simp [decCycle, hd]⟩
  | ok =>
    by_cases hr : (ch.src.drop ch.pos).take v.FOUT = []
    · exact .inr (.inl ⟨rfl, hr, by simp [decCycle, hd, chanRead_ok, hr]⟩)
    have hl : ((ch.src.drop ch.pos).take v.FOUT).length ≠ 0 := fun h => hr (List.length_eq_zero_iff.mp h)
    by_cases hs : ((ch.src.drop ch.pos).take v.FOUT).length < v.FOUT
    · refine .inr (.inr (.inl ⟨_, rfl, rfl, hr, hs, ?_⟩))
      simp only [decCycle, hd, chanRead_ok, if_neg hl, if_pos hs]
    cases hf : decFrame v ((ch.src.drop ch.pos).take v.FOUT) with
    | uncorrectable k =>
      refine .inr (.inr (.inr (.inl ⟨_, k, rfl, rfl, hr, Nat.not_lt.mp hs, hf, ?_⟩)))
      simp only [decCycle, hd, chanRead_ok, if_neg hl, if_neg hs, hf]
    | decoded bs =>
      refine .inr (.inr (.inr (.inr ⟨_, bs, rfl, rfl, hr, Nat.not_lt.mp hs, hf, ?_⟩)))
      simp only [decCycle, hd, chanRead_ok, if_neg hl, if_neg hs, hf]

theorem cycle_of_idle {s : State} (h : s.phase = .idle) : s.cycle = s := by
  simp [State.cycle, h]

theorem cycle_of_encStream {s : State} {v : Variant} {ch : InputChannel} (h : s.phase = .encStream v ch) :
    s.cycle = encCycle v ch s := by
  simp [State.cycle, h]

theorem cycle_of_decStream {s : State} {v : Variant} {ch : InputChannel} (h : s.phase = .decStream v ch) :
    s.cycle = decCycle v ch s := by
  simp [State.cycle, h]

/-! ### Steps -/

theorem busy_eq_false {s : State} : s.busy = false ↔ s.phase = .idle := by
  unfold State.busy
  split <;> simp [*]

theorem acceptCommand_of_ok {w : Word} {i : Instr} (s : State) (h : decode w = .ok i) :
    acceptCommand w s = exec i (s.accepted w) := by
  simp [acceptCommand, h]

theorem acceptCommand_of_error {w : Word} {e : IllegalWord} (s : State) (h : decode w = .error e) :
    acceptCommand w s = .next ((s.accepted w).raise .illegalCommand) := by
  simp [acceptCommand, h]

@[simp] theorem reg?_access (r : Reg) : r.access.reg? = some r := by
  cases r <;> rfl

/-- A defined access is the access of its register (R20, R60). -/
theorem reg?_eq_some {a : Access} {r : Reg} (h : a.reg? = some r) : a = r.access := by
  obtain ⟨o, w⟩ := a
  unfold Access.reg? at h
  by_cases hw : w = 64
  · subst hw
    simp only at h
    repeat' split at h
    all_goals first | cases h; done | (cases h; subst_vars; rfl)
  · simp [hw] at h

theorem step_of_nil {s : State} (h : s.events = []) : step s = .next s.cycle := by
  simp [step, nextStep, h]

theorem step_of_cons {s : State} {e : Event} {es : List Event} (h : s.events = e :: es) :
    step s = eventStep e { s with events := es } := by
  simp [step, nextStep, h]

end Sys2Proof.Machine
end

