-- ==== Sys2Proof/Laws/PerInstr.lean ====
section
/-!
SUPPORT. Facts made per instruction: each command's word decodes to it (R87).
-/

namespace Sys2Proof.Laws.EncodeRoundTrip

/-- The decoder reads back the command whose word the encoder gives. -/
def Statement (i : Instr) : Prop := decode (encode i) = .ok i

theorem nop : Statement .nop := rfl
theorem expand32 : Statement .expand32 := rfl
theorem expand64 : Statement .expand64 := rfl
theorem compress32 : Statement .compress32 := rfl
theorem compress64 : Statement .compress64 := rfl
theorem check32 : Statement .check32 := rfl
theorem check64 : Statement .check64 := rfl
theorem encode32 : Statement .encode32 := rfl
theorem encode64 : Statement .encode64 := rfl
theorem decode32 : Statement .decode32 := rfl
theorem decode64 : Statement .decode64 := rfl
theorem encstream32 : Statement .encstream32 := rfl
theorem encstream64 : Statement .encstream64 := rfl
theorem decstream32 : Statement .decstream32 := rfl
theorem decstream64 : Statement .decstream64 := rfl

end Sys2Proof.Laws.EncodeRoundTrip
end

