-- ==== Sys2Proof/Laws/Step.lean ====
section
/-!
SUPPORT. Everything a step that answers a next state can have done (R202), said once.
-/

namespace Sys2Proof.Machine

/-- All a host operation can do that answers a next state (R60 to R62, R90, R200, R255). -/
theorem hostStep_cases {op : HostOp} {s t : State} (h : hostStep op s = .next t) :
    (∃ w, op = .store Reg.cmd.access w ∧ s.phase = .idle ∧ acceptCommand w s = .next t) ∨
    (∃ w, op = .store Reg.cmd.access w ∧ s.phase ≠ .idle ∧ t = s) ∨
    (∃ x, op = .store Reg.operand.access x ∧ t = { s with operand := x }) ∨
    (∃ (r : Reg) (x : Word), op = .store r.access x ∧ r ≠ .cmd ∧ r ≠ .operand ∧ t = s) ∨
    (∃ r : Reg, op = .load r.access ∧ t = s.observe (.word (s.readReg r))) ∨
    (op = .wait ∧ s.phase ≠ .idle ∧ t = ({ s with events := .host .wait :: s.events } : State).cycle) ∨
    (op = .wait ∧ s.phase = .idle ∧ t = s) ∨
    (∃ bs, op = .supply bs ∧ t = { s with nextInput := some bs }) ∨
    (op = .supplyOutput ∧ t = { s with nextInput := some s.lastOutput }) ∨
    (op = .readOutput ∧ t = s.observe (.bytes s.lastOutput)) := by
  cases op with
  | store a x =>
    cases hr : a.reg? with
    | none => simp [hostStep, hr] at h
    | some r =>
      simp only [hostStep, hr] at h
      obtain rfl := reg?_eq_some hr
      cases r <;> simp only [hostStore] at h
      case cmd =>
        cases hb : s.busy with
        | false =>
          rw [hb] at h
          exact .inl ⟨x, rfl, busy_eq_false.mp hb, h⟩
        | true =>
          rw [hb] at h
          cases h
          refine .inr (.inl ⟨x, rfl, fun hp => ?_, rfl⟩)
          rw [busy_eq_false.mpr hp] at hb
          cases hb
      case operand =>
        cases h
        exact .inr (.inr (.inl ⟨x, rfl, rfl⟩))
      all_goals
        cases h
        exact .inr (.inr (.inr (.inl ⟨_, x, rfl, by decide, by decide, rfl⟩)))
  | load a =>
    cases hr : a.reg? with
    | none => simp [hostStep, hr] at h
    | some r =>
      simp only [hostStep, hr] at h
      cases h
      obtain rfl := reg?_eq_some hr
      exact .inr (.inr (.inr (.inr (.inl ⟨r, rfl, rfl⟩))))
  | wait =>
    simp only [hostStep] at h
    cases hb : s.busy with
    | false =>
      rw [hb] at h
      cases h
      exact .inr (.inr (.inr (.inr (.inr (.inr (.inl ⟨rfl, busy_eq_false.mp hb, rfl⟩))))))
    | true =>
      rw [hb] at h
      cases h
      refine .inr (.inr (.inr (.inr (.inr (.inl ⟨rfl, fun hp => ?_, rfl⟩)))))
      rw [busy_eq_false.mpr hp] at hb
      cases hb
  | supply bs =>
    cases h
    exact .inr (.inr (.inr (.inr (.inr (.inr (.inr (.inl ⟨bs, rfl, rfl⟩)))))))
  | supplyOutput =>
    cases h
    exact .inr (.inr (.inr (.inr (.inr (.inr (.inr (.inr (.inl ⟨rfl, rfl⟩))))))))
  | readOutput =>
    cases h
    exact .inr (.inr (.inr (.inr (.inr (.inr (.inr (.inr (.inr ⟨rfl, rfl⟩))))))))

/-- All a step can do that answers a next state (R202). -/
theorem step_cases {s t : State} (h : step s = .next t) :
    (s.events = [] ∧ t = s.cycle) ∨
    (∃ es, s.events = .cycle :: es ∧ t = ({ s with events := es } : State).cycle) ∨
    (∃ es, s.events = .reset :: es ∧ t = ({ s with events := es } : State).resetEngine) ∨
    (∃ op es, s.events = .host op :: es ∧ hostStep op { s with events := es } = .next t) := by
  cases he : s.events with
  | nil =>
    rw [step_of_nil he] at h
    cases h
    exact .inl ⟨rfl, rfl⟩
  | cons e es =>
    rw [step_of_cons he] at h
    cases e with
    | host op => exact .inr (.inr (.inr ⟨op, es, rfl, h⟩))
    | cycle =>
      cases h
      exact .inr (.inl ⟨es, rfl, rfl⟩)
    | reset =>
      cases h
      exact .inr (.inr (.inl ⟨es, rfl, rfl⟩))

end Sys2Proof.Machine
end

