-- ==== Sys2Proof/Tests/Slice0.lean ====
section
/-!
SUPPORT. The model's own tests: the checks refuse ill-formed terms, each command's word decodes to it, the values of
95_test_vectors.md, and, for each statement with hypotheses, a state that meets them.
-/

namespace Sys2Proof.Tests

open Sys2Proof.Machine

/-! ### Ill-formed terms are refused (R60, R88) -/

theorem test_wf_reserved_bit : wordLegal 0x20 = false := by decide
theorem test_wf_reserved_op : wordLegal 0x08 = false := by decide
theorem test_wf_nop_variant : wordLegal 0x10 = false := by decide
theorem test_wf_legal : wordLegal 0x17 = true := by decide
theorem test_wf_access_width : (⟨0x08, 32⟩ : Access).wf = false := by decide
theorem test_wf_access_offset : (⟨0x0C, 64⟩ : Access).wf = false := by decide
theorem test_wf_access_range : (⟨0x40, 64⟩ : Access).wf = false := by decide
theorem test_wf_host_store : (HostOp.store ⟨0x01, 64⟩ 0).wf = false := by decide
theorem test_wf_host_load : (HostOp.load ⟨0x38, 64⟩).wf = true := by decide

/-! ### Decoding, each word written from the fields of R80 and the map of R87: reserved, VAR, OP -/

theorem test_decode_nop : decode (0#59 ++ 0b0#1 ++ 0b0000#4) = .ok .nop := by decide
theorem test_decode_expand32 : decode (0#59 ++ 0b0#1 ++ 0b0001#4) = .ok .expand32 := by decide
theorem test_decode_expand64 : decode (0#59 ++ 0b1#1 ++ 0b0001#4) = .ok .expand64 := by decide
theorem test_decode_compress32 : decode (0#59 ++ 0b0#1 ++ 0b0010#4) = .ok .compress32 := by decide
theorem test_decode_compress64 : decode (0#59 ++ 0b1#1 ++ 0b0010#4) = .ok .compress64 := by decide
theorem test_decode_check32 : decode (0#59 ++ 0b0#1 ++ 0b0011#4) = .ok .check32 := by decide
theorem test_decode_check64 : decode (0#59 ++ 0b1#1 ++ 0b0011#4) = .ok .check64 := by decide
theorem test_decode_encode32 : decode (0#59 ++ 0b0#1 ++ 0b0100#4) = .ok .encode32 := by decide
theorem test_decode_encode64 : decode (0#59 ++ 0b1#1 ++ 0b0100#4) = .ok .encode64 := by decide
theorem test_decode_decode32 : decode (0#59 ++ 0b0#1 ++ 0b0101#4) = .ok .decode32 := by decide
theorem test_decode_decode64 : decode (0#59 ++ 0b1#1 ++ 0b0101#4) = .ok .decode64 := by decide
theorem test_decode_encstream32 : decode (0#59 ++ 0b0#1 ++ 0b0110#4) = .ok .encstream32 := by decide
theorem test_decode_encstream64 : decode (0#59 ++ 0b1#1 ++ 0b0110#4) = .ok .encstream64 := by decide
theorem test_decode_decstream32 : decode (0#59 ++ 0b0#1 ++ 0b0111#4) = .ok .decstream32 := by decide
theorem test_decode_decstream64 : decode (0#59 ++ 0b1#1 ++ 0b0111#4) = .ok .decstream64 := by decide

/-- V94. -/
theorem test_decode_rejects :
    decode 0x08 = .error .reservedOp ∧ decode 0x0F = .error .reservedOp ∧ decode 0x10 = .error .nopVariant ∧
    decode 0x18 = .error .reservedOp ∧ decode 0x1F = .error .reservedOp ∧ decode 0x20 = .error .reservedBits ∧
    decode 0x8000000000000004 = .error .reservedBits := by decide

theorem test_table_word : decodeTableWord 64 0x15 = some .decode64 ∧ decodeTableWord 64 0x1F = none := by decide

/-- A placed command is the first thing a reset machine runs, whatever the channels answer. -/
theorem test_first_step_after_reset :
    ∀ w ∈ [0x00, 0x01, 0x11, 0x02, 0x12, 0x03, 0x13, 0x04, 0x14, 0x05, 0x15, 0x06, 0x16, 0x07, 0x17],
      (match step (State.reset.withFetchWord 64 w) with | .next _ => true | .refused _ => false) = true := by decide

/-! ### Values of the specification -/

/-- The next state of a step, or the reset state where there is none. -/
def after : Host.Outcome State Fault Refusal → State
  | .next s => s
  | .refused _ => State.reset

/-- A small state: a given OPERAND, a RESULT of 9 and a stale error. -/
def withOperand (x : Word) : State := { State.reset with operand := x, result := 9, err := .ioFailure }

/-- What a word command leaves in RESULT, ERR, SYNDROME, PARITY and DCLASS. -/
def wordResult (i : Instr) (x : Word) : Word × ErrCode × BitVec 6 × Bool × DClass :=
  let t := after (exec i (withOperand x))
  (t.result, t.err, t.syndrome, t.parity, t.dclass)

/-- R5: the frame period is lcm(D, W), and the frame sizes follow. -/
theorem test_frame_geometry : ∀ v : Variant, v.F = Nat.lcm v.D v.W ∧ v.N * v.D = v.F ∧ 8 * v.FIN = v.F ∧
    8 * v.FOUT = v.N * v.W := by
  intro v; cases v <;> decide

/-- V95: NOP after an error. -/
theorem test_nop : wordResult .nop 0 = (9, .noError, 0, false, .clean) := by decide

/-- V4. -/
theorem test_expand32 : wordResult .expand32 0x15 = (0x248, .noError, 0, false, .clean) := by decide
/-- V8. -/
theorem test_expand32_wide : wordResult .expand32 0x4000000 = (9, .inputTooWide, 0, false, .clean) := by decide
/-- V13. -/
theorem test_expand64 : wordResult .expand64 0x4000000 = (0x200000000, .noError, 0, false, .clean) := by decide
/-- V14. -/
theorem test_expand64_wide : wordResult .expand64 0x200000000000000 = (9, .inputTooWide, 0, false, .clean) := by decide
/-- V19. -/
theorem test_compress32 : wordResult .compress32 0x1FF = (0xF, .noError, 0, false, .clean) := by decide
/-- V20. -/
theorem test_compress32_wide : wordResult .compress32 0x100000000 = (9, .operandTooWide, 0, false, .clean) := by decide
/-- V21. -/
theorem test_compress64 : wordResult .compress64 0x0000006FAB6EDCEF = (0xDEADBEEF, .noError, 0, false, .clean) := by decide
/-- V28. -/
theorem test_check32 : wordResult .check32 0x6 = (3, .noError, 3, false, .clean) := by decide
/-- V32. -/
theorem test_check32_wide : wordResult .check32 0xFFFFFFFF00000000 = (9, .operandTooWide, 0, false, .clean) := by decide
/-- V35. -/
theorem test_check64 : wordResult .check64 0x0000000100010117 = (63, .noError, 63, true, .clean) := by decide
/-- V37k. -/
theorem test_encode32 : wordResult .encode32 0x2ADBEEF = (0xAB6EDCE9, .noError, 0, false, .clean) := by decide
/-- V37l. -/
theorem test_encode32_wide : wordResult .encode32 0x4000000 = (9, .inputTooWide, 0, false, .clean) := by decide
/-- V38e. -/
theorem test_encode64 : wordResult .encode64 0x155555555555555 = (0xAAAAAAAA5555AA5A, .noError, 0, false, .clean) := by
  decide +kernel
/-- V38h. -/
theorem test_encode64_wide : wordResult .encode64 0x200000000000000 = (9, .inputTooWide, 0, false, .clean) := by decide
/-- V47. -/
theorem test_decode32_parity_only : wordResult .decode32 0x67 = (6, .noError, 0, true, .parityOnly) := by decide
/-- V45. -/
theorem test_decode32_uncorrectable :
    wordResult .decode32 0x8000000E = (9, .uncorrectable, 31, false, .uncorrectable) := by decide
/-- V56. -/
theorem test_decode64 : wordResult .decode64 0x0000016FAB6EDCEF = (0xDEADBEEF, .noError, 40, true, .corrected) := by
  decide
/-- V55. -/
theorem test_decode64_uncorrectable :
    wordResult .decode64 0x800000000000000E = (9, .uncorrectable, 63, false, .uncorrectable) := by decide

/-- P1: STATUS after the first DECODE32 reads 0x01050300. -/
theorem test_status_word : (after (exec .decode32 (withOperand 0xFFFFFFDF))).readReg .status = 0x0000000001050300 := by
  decide

/-- A running stream command on an input, with outcomes to come. -/
def running (start : InputChannel → Phase) (src : List Byte) (ds : List IoDraw) : State :=
  { State.reset with phase := start ⟨src, 0⟩, outputs := [[]], draws := ds }

/-- Counters, ERR and whether the engine is busy. -/
def progress (s : State) : Word × Word × Word × ErrCode × Bool := (s.sinBytes, s.soutBytes, s.sframes, s.err, s.busy)

/-- V90 and V96: ChanOpen fails, or the command is accepted. -/
theorem test_encstream32 :
    progress (after (exec .encstream32 { State.reset with draws := [.fail 0], sinBytes := 7 })) =
      (0, 0, 0, .ioFailure, false) ∧
    (after (exec .encstream32 { State.reset with draws := [.ok], nextInput := some [0x41] })).phase =
      .encStream .h32 ⟨[0x41], 0⟩ := by decide

theorem test_encstream64_accepted :
    (after (exec .encstream64 { State.reset with draws := [.ok], nextInput := some [0x41] })).phase =
      .encStream .h64 ⟨[0x41], 0⟩ := by decide

theorem test_decstream32_accepted :
    (after (exec .decstream32 { State.reset with draws := [.ok], nextInput := some [0x41] })).phase =
      .decStream .h32 ⟨[0x41], 0⟩ := by decide

theorem test_decstream64_accepted :
    (after (exec .decstream64 { State.reset with draws := [.ok], nextInput := some [0x41] })).phase =
      .decStream .h64 ⟨[0x41], 0⟩ := by decide

/-- The 64 bytes of V66: codewords 0x10D0491F and 0x00052B1D, then zeros. -/
def v66 : List Byte := [0x1F, 0x49, 0xD0, 0x10, 0x1D, 0x2B, 0x05, 0x00] ++ List.replicate 56 0

/-- One cycle of ENCSTREAM32: V66, whose read is short, so that the command ends; and V92's FAIL(10), in a first cycle. -/
theorem test_encode_cycle :
    (running (.encStream .h32) [0x41, 0x42, 0x43, 0x44, 0x45] [.ok, .ok]).cycle.outputs = [v66] ∧
    progress (running (.encStream .h32) [0x41, 0x42, 0x43, 0x44, 0x45] [.ok, .ok]).cycle = (5, 64, 1, .noError, false) ∧
    progress (running (.encStream .h32) [0x41] [.ok, .fail 10]).cycle = (1, 10, 0, .ioFailure, false) := by
  decide +kernel

/-- One cycle of DECSTREAM32: V77 on the output of V66; as V82, bits 1 and 5 of its codeword 0 flipped; and V80, an input of
63 bytes. -/
theorem test_decode_cycle :
    (running (.decStream .h32) v66 [.ok, .ok]).cycle.outputs = [[0x41, 0x42, 0x43, 0x44, 0x45]] ∧
    progress (running (.decStream .h32) (0x3D :: v66.tail) [.ok, .ok]).cycle = (64, 0, 0, .uncorrectable, false) ∧
    progress (running (.decStream .h32) v66.tail [.ok, .ok]).cycle = (63, 0, 0, .malformedStream, false) := by
  decide +kernel

/-- V79: a frame of zeros trims to one zero byte. -/
theorem test_trim_zeros : trim (List.replicate 52 0) = [0] := by decide

/-- V70: the first codeword of ENCSTREAM64 on [0x41]. -/
theorem test_encode_frame64 : (encFrame .h64 (padFrame .h64 [0x41])).take 8 = [9, 9, 0, 0, 0, 0, 0, 0] := by
  decide +kernel

/-- An address in the block at 0x1000 is an offset of it; the byte after the block is not (R63). -/
theorem test_block_offset : blockOffset 0x1000 0x1038 = some 0x38 ∧ blockOffset 0x1000 0x1040 = none := by decide

/-- An idle engine whose host stores a word to CMD next. -/
def storing (w : Word) : State := { State.reset with events := [.host (.store ⟨0x00, 64⟩ w)] }

/-- A busy engine whose host does something next; it has done no cycle yet. -/
def busyWith (e : Event) : State := { running (.encStream .h32) [0x41] [.ok, .ok] with events := [e] }

/-- R203: a run ends with the host's last operation and an idle engine, also where a reset is still to come. -/
theorem test_run_ended :
    ({ State.reset with events := [.reset] } : State).runEnded = true ∧ (busyWith .reset).runEnded = false ∧
    (storing 0).runEnded = false := by decide

/-! ### Witnesses: for each statement with hypotheses, a state that meets them, at the boundaries of each clause -/

theorem test_witness_StepRunsTheDecodedCommand :
    (storing 0x15).events = .host (.store ⟨0x00, 64⟩ 0x15) :: [] ∧ (storing 0x15).phase = .idle ∧
    decode 0x15 = .ok .decode64 := by decide

theorem test_witness_IllegalCommandOnlyRecordsItsError :
    (storing 0x10).events = .host (.store ⟨0x00, 64⟩ 0x10) :: [] ∧ (storing 0x10).phase = .idle ∧
    ((0x20 : Word).extractLsb' 5 59 ≠ 0) ∧ 8 ≤ ((0x08 : Word).extractLsb' 0 4).toNat ∧
    8 ≤ ((0x1F : Word).extractLsb' 0 4).toNat ∧
    ((0x10 : Word).extractLsb' 0 4 = 0 ∧ (0x10 : Word).getLsbD 4 = true) := by decide

theorem test_witness_CommandWhileBusyIsDropped :
    (busyWith (.host (.store ⟨0x00, 64⟩ 0x04))).events = .host (.store ⟨0x00, 64⟩ 0x04) :: [] ∧
    (busyWith (.host (.store ⟨0x00, 64⟩ 0x04))).phase ≠ .idle ∧
    Instr.decode64.isWordCommand = true ∧ Instr.nop.isWordCommand = true ∧ State.reset.phase = .idle ∧
    (after (exec .nop State.reset)).phase = .idle := by decide

theorem test_witness_NopClearsOnlyTheError :
    (storing 0).events = .host (.store ⟨0x00, 64⟩ 0) :: [] ∧ (storing 0).phase = .idle ∧
    (storing 0x10).events = .host (.store ⟨0x00, 64⟩ 0x10) :: [] ∧
    (busyWith (.host (.store ⟨0x00, 64⟩ 0))).events = .host (.store ⟨0x00, 64⟩ 0) :: [] ∧
    (busyWith (.host (.store ⟨0x00, 64⟩ 0))).phase ≠ .idle := by decide

theorem test_witness_ReadOnlyRegistersIgnoreStores :
    0x10 ∈ [0x10, 0x18, 0x20, 0x28, 0x30, 0x38] ∧ 0x38 ∈ [0x10, 0x18, 0x20, 0x28, 0x30, 0x38] ∧
    (busyWith (.host (.store ⟨0x38, 64⟩ 1))).events = .host (.store ⟨0x38, 64⟩ 1) :: [] ∧
    (busyWith (.host (.load ⟨0x38, 64⟩))).events = .host (.load ⟨0x38, 64⟩) :: [] := by decide

theorem test_witness_HostLoadsAndOperandStores :
    (busyWith (.host (.store ⟨0x08, 64⟩ 1))).events = .host (.store ⟨0x08, 64⟩ 1) :: [] ∧
    (busyWith (.host (.load ⟨0x18, 64⟩))).events = .host (.load ⟨0x18, 64⟩) :: [] ∧
    (0x18, (1 : Word)) ∈
      (let s := busyWith (.host (.load ⟨0x18, 64⟩))
       [(0x00, s.cmdLast), (0x08, s.operand), (0x10, s.result), (0x18, s.statusWord), (0x20, s.sinBytes),
        (0x28, s.soutBytes), (0x30, s.sframes)]) := by decide

theorem test_witness_UndefinedAccessesAreRefused :
    (busyWith (.host (.store ⟨0x38, 64⟩ 1))).events = .host (.store ⟨0x38, 64⟩ 1) :: [] ∧
    (64 = 64 ∧ 0x38 % 8 = 0 ∧ 0x38 < 0x40) ∧
    (busyWith (.host (.load ⟨0x40, 64⟩))).events = .host (.load ⟨0x40, 64⟩) :: [] ∧
    ¬ (64 = 64 ∧ 0x40 % 8 = 0 ∧ 0x40 < 0x40) ∧ ¬ (64 = 64 ∧ 0x04 % 8 = 0 ∧ 0x04 < 0x40) ∧
    ¬ (32 = 64 ∧ 0x08 % 8 = 0 ∧ 0x08 < 0x40) := by decide

theorem test_witness_SchedulerSteps :
    (busyWith .cycle).events = .cycle :: [] ∧ State.reset.events = [] ∧ State.reset.phase = .idle ∧
    (busyWith (.host .wait)).events = .host .wait :: [] ∧ (busyWith (.host .wait)).phase ≠ .idle ∧
    ({ State.reset with events := [.host .wait] } : State).phase = .idle := by decide

theorem test_witness_HostChannelOperations :
    (busyWith (.host (.supply [1]))).events = .host (.supply [1]) :: [] ∧
    (busyWith (.host .supplyOutput)).events = .host .supplyOutput :: [] ∧
    (busyWith (.host .readOutput)).events = .host .readOutput :: [] ∧
    (busyWith (.host .readOutput)).outputs.headD [1] = [] ∧
    ({ State.reset with events := [.host .readOutput] } : State).events = .host .readOutput :: [] ∧
    State.reset.outputs = [] := by decide

theorem test_witness_DataPositionsAscend :
    (25 < Variant.h32.D ∧ 56 < Variant.h64.D ∧ ¬ 57 < Variant.h64.D) ∧ (0 < 1 ∧ 1 < Variant.h32.D) ∧
    (63 < Variant.h64.W ∧ Variant.h64.pmask.getLsbD 63 = false ∧ Variant.h64.pmask.getLsbD 32 = true) := by decide

theorem test_witness_ScatterGatherAreInverse : (0x80000008 : BitVec 32) &&& Variant.h32.pmask = 0 := by decide

theorem test_witness_SyndromeAndParityAreLinear : 63 < Variant.h64.W ∧ checkW 0xF#64 = 0 := by decide

theorem test_witness_EncodeIsLinearAndInjective : encodeW .h32 1 = encodeW .h32 (1 + 0) := by decide

theorem test_witness_CodeDistanceIsFour : (0 : BitVec 57) ≠ 1 ∧ popcount (encodeW .h64 0 ^^^ encodeW .h64 1) = 4 := by
  decide +kernel

theorem test_witness_DecodeFollowsTheDecisionTable :
    (checkW 0xF#32 = 0 ∧ par 0xF#32 = false) ∧ (checkW 0xE#32 = 0 ∧ par 0xE#32 = true) ∧
    (checkW 0xD#32 ≠ 0 ∧ par 0xD#32 = true ∧ (checkW 0xD#32).toNat = 2 ^ 0) ∧
    (checkW 0xC#32 ≠ 0 ∧ par 0xC#32 = false) ∧
    ((checkW 0x100000000#64).toNat = 2 ^ 5 ∧ 5 < Variant.h64.groups ∧ par 0x100000000#64 = true) := by decide

theorem test_witness_SingleErrorsAreCorrected : 0 < Variant.h32.W ∧ 31 < Variant.h32.W ∧ 63 < Variant.h64.W := by decide

theorem test_witness_DoubleErrorsAreDetected : 0 < Variant.h64.W ∧ 63 < Variant.h64.W ∧ 0 ≠ 63 := by decide

theorem test_witness_MessageCommands :
    (withOperand 0x3FFFFFF).operand.toNat < 2 ^ 26 ∧ 2 ^ 26 ≤ (withOperand 0x4000000).operand.toNat ∧
    (withOperand 0x1FFFFFFFFFFFFFF).operand.toNat < 2 ^ 57 ∧ 2 ^ 57 ≤ (withOperand 0x200000000000000).operand.toNat := by
  decide

theorem test_witness_CodewordCommands :
    (withOperand 0xFFFFFFFF).operand.extractLsb' 32 32 = 0 ∧ (withOperand 0x100000000).operand.extractLsb' 32 32 ≠ 0 := by
  decide

theorem test_witness_DecodeCommands :
    (decodeW .h32 ((withOperand 0xF).operand.extractLsb' 0 32)).message = some 1 ∧
    (decodeW .h32 ((withOperand 0xC).operand.extractLsb' 0 32)).message = none ∧
    (decodeW .h64 (withOperand 0xF).operand).message = some 1 ∧
    (decodeW .h64 (withOperand 0x800000000000000E).operand).message = none := by decide

theorem test_witness_WordCommandFrame :
    Instr.check64.isWordCommand = true ∧ Instr.expand32 ∉ [.check32, .check64, .decode32, .decode64] ∧
    Instr.check32 ∉ [.decode32, .decode64] := by decide

theorem test_witness_WordErrorsArePrecise :
    Instr.decode32.isWordCommand = true ∧ (after (exec .decode32 (withOperand 0xC))).err ≠ .noError ∧
    Instr.expand32.isWordCommand = true ∧ (after (exec .expand32 (withOperand 0x4000000))).err ≠ .noError := by decide

theorem test_witness_StreamCommandsAreAccepted :
    ({ State.reset with draws := [.ok] } : State).nextDraw = .ok ∧
    ({ State.reset with draws := [.fail 3] } : State).nextDraw = .fail 3 := by decide

theorem test_witness_EncodeCycleEffect :
    (running (.encStream .h32) [0x41] [.ok, .ok]).phase = .encStream .h32 ⟨[0x41], 0⟩ ∧
    (([0x41] : List Byte).drop 0).take Variant.h32.FIN ≠ [] ∧ (([] : List Byte).drop 0).take Variant.h32.FIN = [] ∧
    (running (.encStream .h32) [0x41] [.ok, .ok]).nextDraw = .ok ∧
    (running (.encStream .h32) [0x41] [.ok, .ok]).takeDraw.nextDraw = .ok ∧
    (running (.encStream .h32) [0x41] [.ok, .fail 64]).takeDraw.nextDraw = .fail 64 ∧
    (running (.encStream .h32) [0x41] [.fail 0]).nextDraw = .fail 0 := by decide

theorem test_witness_DecodeCycleEffect :
    (running (.decStream .h32) v66 [.ok, .ok]).phase = .decStream .h32 ⟨v66, 0⟩ ∧
    ((v66.drop 0).take Variant.h32.FOUT).length = Variant.h32.FOUT ∧
    ((v66.tail.drop 0).take Variant.h32.FOUT).length < Variant.h32.FOUT ∧
    decFrame .h32 ((v66.drop 0).take Variant.h32.FOUT) =
      .decoded ([0x41, 0x42, 0x43, 0x44, 0x45] ++ List.replicate 47 0) ∧
    decFrame .h32 (((0x3D :: v66.tail).drop 0).take Variant.h32.FOUT) = .uncorrectable 0 ∧
    (running (.decStream .h32) v66 [.ok, .fail 4]).nextDraw = .ok ∧
    (running (.decStream .h32) v66 [.ok, .fail 4]).takeDraw.nextDraw = .fail 4 ∧
    (running (.decStream .h32) v66 [.ok, .ok]).takeDraw.nextDraw = .ok ∧
    (running (.decStream .h32) v66 [.fail 4]).nextDraw = .fail 4 := by decide +kernel

theorem test_witness_Frames :
    (List.replicate 52 0 : List Byte).length = Variant.h32.FIN ∧ 15 < Variant.h32.N ∧ 25 < Variant.h32.D ∧
    decFrame .h32 v66 = .decoded ([0x41, 0x42, 0x43, 0x44, 0x45] ++ List.replicate 47 0) := by decide +kernel

theorem test_witness_TrimDropsTheFinalZeroRun : ([0, 0] : List Byte) ≠ [] := by decide

/-- A running ENCSTREAM32 on an input, with enough successful outcomes. -/
def encoding (src : List Byte) : State :=
  running (.encStream .h32) src (List.replicate (2 * frameCount .h32 src.length + 1) .ok)

/-- The hypotheses of EncodedLength hold of `encoding src`. -/
abbrev EncodingStarts (src : List Byte) : Prop :=
  (encoding src).phase = .encStream .h32 ⟨src, 0⟩ ∧ (encoding src).err = .noError ∧ (encoding src).outputs = [] :: [] ∧
    (encoding src).sinBytes = 0 ∧ (encoding src).soutBytes = 0 ∧ (encoding src).sframes = 0 ∧
    (encoding src).draws = List.replicate (2 * frameCount .h32 src.length + 1) .ok ++ []

/-- L = 0, L = 1 and L = FIN. -/
theorem test_witness_EncodedLength :
    EncodingStarts [] ∧ EncodingStarts [0x41] ∧ EncodingStarts (List.replicate 52 1) ∧
    (List.replicate 52 1 : List Byte).length = Variant.h32.FIN ∧ frameCount .h32 52 = 1 := by decide +kernel

theorem test_witness_StreamRoundTrip :
    (running (.decStream .h32) (encodedStream .h32 [0x41]) (List.replicate 3 .ok)).phase =
      .decStream .h32 ⟨encodedStream .h32 [0x41], 0⟩ ∧
    (running (.decStream .h32) (encodedStream .h32 [0x41]) (List.replicate 3 .ok)).err = .noError ∧
    (running (.decStream .h32) (encodedStream .h32 [0x41]) (List.replicate 3 .ok)).outputs = [] :: [] ∧
    (running (.decStream .h32) (encodedStream .h32 [0x41]) (List.replicate 3 .ok)).draws =
      List.replicate (2 * frameCount .h32 ([0x41] : List Byte).length + 1) .ok ++ [] ∧
    0 < frameCount .h32 ([0x41] : List Byte).length := by decide +kernel

theorem test_witness_StreamsTerminate :
    (running (.encStream .h64) [0x41] []).phase = .encStream .h64 ⟨[0x41], 0⟩ ∧
    (running (.decStream .h64) [] []).phase = .decStream .h64 ⟨[], 0⟩ := by decide

/-- The invariant holds in a busy state, before any cycle. -/
theorem test_witness_StepKeepsTheStreamInvariant :
    (busyWith .cycle).Inv ∧ (after (step (busyWith (.host (.load ⟨0x18, 64⟩))))).phase ≠ .idle :=
  ⟨⟨0, by decide, by decide, by decide, by decide, by decide, by decide, by decide⟩, by decide⟩

theorem test_witness_ErrorLeavesTheEngineIdle :
    ({ storing 0 with err := .ioFailure } : State).Inv ∧ ({ storing 0 with err := .ioFailure } : State).err ≠ .noError ∧
    ({ storing 0 with err := .ioFailure } : State).events = .host (.store ⟨0x00, 64⟩ 0) :: [] ∧
    ({ storing 0x20 with err := .ioFailure } : State).events = .host (.store ⟨0x00, 64⟩ 0x20) :: [] ∧
    ({ storing 0x20 with err := .ioFailure } : State).phase = .idle :=
  ⟨trivial, by decide, by decide, by decide, by decide⟩

theorem test_witness_OperandChangesOnlyFromOutside :
    (after (step (busyWith (.host (.store ⟨0x08, 64⟩ 1))))).operand ≠
      (busyWith (.host (.store ⟨0x08, 64⟩ 1))).operand ∧
    (after (step { withOperand 1 with events := [.reset] })).operand ≠ (withOperand 1).operand := by decide

theorem test_witness_CmdLastIsTheLastAcceptedWord :
    (storing 0x10).phase = .idle ∧ (after (step (storing 0x10))).cmdLast ≠ (storing 0x10).cmdLast ∧
    ({ State.reset with events := [.reset] } : State).events = .reset :: [] := by decide

theorem test_witness_ResultChangesOnlyOnSuccess :
    (after (step { storing 0x01 with operand := 1 })).result ≠ ({ storing 0x01 with operand := 1 } : State).result := by
  decide

theorem test_witness_ResetDuringAStreamKeepsItsOutput :
    (busyWith .reset).events = .reset :: [] ∧ (busyWith .reset).phase ≠ .idle := by decide

/-- Two engines, one of them about to take a command. -/
def twoEngines : List PlacedEngine := [⟨0x1000, storing 0x10⟩, ⟨0x2000, State.reset⟩]

theorem test_witness_EnginesShareNothing :
    twoEngines[0]? = some ⟨0x1000, storing 0x10⟩ ∧ (1 : Nat) ≠ 0 ∧
    (match step (storing 0x10) with | .next _ => true | .refused _ => false) = true ∧
    (match engineStep 0 twoEngines with | .next _ => true | .refused _ => false) = true ∧
    (match busStep (.store 64 5) 0x2008 twoEngines with | .next _ => true | .refused _ => false) = true := by decide

end Sys2Proof.Tests
end

section
/-!
PROOFS. The reset state (R34) and the mask tables (R31).
-/

namespace Sys2Proof.Machine

/-! ### The registers after reset (R34) -/

theorem State.statusWord_reset : State.reset.statusWord = 0 := by decide

/-- Every register reads 0 after reset; STATUS is the one that is built from fields. -/
theorem State.readReg_reset (r : Reg) : State.reset.readReg r = 0 := by
  cases r with
  | status => exact State.statusWord_reset
  | cmd | operand | result | sinBytes | soutBytes | sframes | reserved => rfl

/-! ### The mask tables (R31) -/

/-- The parity positions are bit 0 and the powers of two of the group-parity bits (R81). -/
theorem getLsbD_pmask (v : Variant) {k : Nat} (hk : k < v.W) :
    v.pmask.getLsbD k = true ↔ k = 0 ∨ ∃ j, j < v.groups ∧ k = 2 ^ j := by
  cases v with
  | h32 => exact (by decide : ∀ k < 32, Variant.h32.pmask.getLsbD k = true ↔ k = 0 ∨ ∃ j < 5, k = 2 ^ j) k hk
  | h64 => exact (by decide : ∀ k < 64, Variant.h64.pmask.getLsbD k = true ↔ k = 0 ∨ ∃ j < 6, k = 2 ^ j) k hk

/-- The data positions are the positions that are not parity positions (R31). -/
theorem dmask_eq_not_pmask (v : Variant) : v.dmask = ~~~ v.pmask := by
  cases v <;> decide

/-- There is one data position per message bit (R31). -/
theorem popcount_dmask (v : Variant) : popcount v.dmask = v.D := by
  cases v <;> decide

/-- Settles O58: the fields of the reset state hold by definition, STATUS by its word, and the masks by their bits. -/
theorem resetValues : Obligations.ResetValues := by
  unfold Obligations.ResetValues
  exact ⟨State.readReg_reset, rfl, rfl, rfl, State.statusWord_reset,
    rfl, rfl, rfl, rfl, rfl, rfl, rfl, rfl, rfl, rfl, rfl, rfl, rfl,
    fun v _ hk => getLsbD_pmask v hk, fun v => ⟨dmask_eq_not_pmask v, popcount_dmask v⟩⟩

end Sys2Proof.Machine
end

section
/-!
PROOFS. The host's accesses to the register block: which accesses are defined (R60), the read-only registers and the
reserved offset (R61), and the reserved fields of STATUS (R24).
-/

namespace Sys2Proof.Machine

/-! ### Defined accesses (R60) -/

/-- The registers lie at every multiple of 8 below 0x40 (R20). -/
theorem exists_reg_offset_iff (o : Nat) : (∃ r : Reg, r.offset = o) ↔ o % 8 = 0 ∧ o < 0x40 := by
  constructor
  · rintro ⟨r, rfl⟩
    cases r <;> decide
  · rintro ⟨h8, hlt⟩
    obtain rfl | rfl | rfl | rfl | rfl | rfl | rfl | rfl :
        o = 0x00 ∨ o = 0x08 ∨ o = 0x10 ∨ o = 0x18 ∨ o = 0x20 ∨ o = 0x28 ∨ o = 0x30 ∨ o = 0x38 := by omega
    exacts [⟨.cmd, rfl⟩, ⟨.operand, rfl⟩, ⟨.result, rfl⟩, ⟨.status, rfl⟩,
      ⟨.sinBytes, rfl⟩, ⟨.soutBytes, rfl⟩, ⟨.sframes, rfl⟩, ⟨.reserved, rfl⟩]

/-- The accesses with a register are the aligned 64-bit accesses inside the block. -/
theorem exists_eq_access_iff (a : Access) :
    (∃ r : Reg, a = r.access) ↔ a.width = 64 ∧ a.offset % 8 = 0 ∧ a.offset < 0x40 := by
  rw [← exists_reg_offset_iff]
  constructor
  · rintro ⟨r, rfl⟩
    exact ⟨rfl, r, rfl⟩
  · obtain ⟨o, w⟩ := a
    rintro ⟨rfl, r, rfl⟩
    exact ⟨r, rfl⟩

/-- Every other access reaches no register. -/
theorem reg?_eq_none {a : Access} (h : ¬ (a.width = 64 ∧ a.offset % 8 = 0 ∧ a.offset < 0x40)) : a.reg? = none := by
  cases hr : a.reg? with
  | none => rfl
  | some r => exact absurd ((exists_eq_access_iff a).mp ⟨r, reg?_eq_some hr⟩) h

/-! ### Every defined access answers a next state -/

/-- No command faults or is refused, in any state: an error of the engine is a value of STATUS.ERR (R217). -/
theorem exec_eq_next (i : Instr) (s : State) : ∃ t, exec i s = .next t := by
  cases i <;> exact ⟨_, rfl⟩

/-- Accept answers a next state for every word, legal or not (R200, R212). -/
theorem acceptCommand_eq_next (w : Word) (s : State) : ∃ t, acceptCommand w s = .next t := by
  cases h : decode w with
  | ok i =>
    rw [acceptCommand_of_ok s h]
    exact exec_eq_next i _
  | error e => exact ⟨_, acceptCommand_of_error s h⟩

theorem hostStore_eq_next (r : Reg) (x : Word) (s : State) : ∃ t, hostStore r x s = .next t := by
  cases r with
  | cmd =>
    cases hb : s.busy with
    | true => exact ⟨s, by simp [hostStore, hb]⟩
    | false => simpa [hostStore, hb] using acceptCommand_eq_next x s
  | operand | result | status | sinBytes | soutBytes | sframes | reserved => exact ⟨_, rfl⟩

/-! ### The step of a load or a store -/

/-- A defined store is the store to its register, in the state that no longer lists it. -/
theorem step_of_store {s : State} {es : List Event} {r : Reg} {x : Word}
    (h : s.events = .host (.store r.access x) :: es) : step s = hostStore r x { s with events := es } := by
  simp [step_of_cons h, eventStep, hostStep]

/-- A defined load shows the host the register's value (R62). -/
theorem step_of_load {s : State} {es : List Event} {r : Reg} (h : s.events = .host (.load r.access) :: es) :
    step s = .next { s with events := es, observed := .word (s.readReg r) :: s.observed } := by
  rw [step_of_cons h]
  cases r <;> rfl

theorem step_of_undefined_store {s : State} {es : List Event} {a : Access} {x : Word}
    (h : s.events = .host (.store a x) :: es) (ha : a.reg? = none) : step s = .refused (.undefinedAccess a) := by
  simp [step_of_cons h, eventStep, hostStep, ha]

theorem step_of_undefined_load {s : State} {es : List Event} {a : Access}
    (h : s.events = .host (.load a) :: es) (ha : a.reg? = none) : step s = .refused (.undefinedAccess a) := by
  simp [step_of_cons h, eventStep, hostStep, ha]

/-- Settles O10: a defined access is the access of a register, whose load or store answers a next state; any other
access reaches no register. -/
theorem undefinedAccessesAreRefused : Obligations.UndefinedAccessesAreRefused := by
  unfold Obligations.UndefinedAccessesAreRefused
  intro s es a x h
  constructor
  · intro hdef
    obtain ⟨r, rfl⟩ := (exists_eq_access_iff a).mpr hdef
    obtain h | h := h
    · rw [step_of_store h]
      exact hostStore_eq_next r x _
    · exact ⟨_, step_of_load h⟩
  · intro hundef
    obtain h | h := h
    · exact step_of_undefined_store h (reg?_eq_none hundef)
    · exact step_of_undefined_load h (reg?_eq_none hundef)

/-! ### Read-only registers and reserved fields (R24, R61) -/

/-- Only CMD and OPERAND take a store. -/
theorem hostStore_of_readOnly {r : Reg} (x : Word) (s : State) (hcmd : r ≠ .cmd) (hop : r ≠ .operand) :
    hostStore r x s = .next s := by
  cases r with
  | cmd => exact absurd rfl hcmd
  | operand => exact absurd rfl hop
  | result | status | sinBytes | soutBytes | sframes | reserved => rfl

/-- The offsets past OPERAND belong to registers the host cannot write. -/
theorem exists_readOnly_offset {o : Nat} (h : o ∈ [0x10, 0x18, 0x20, 0x28, 0x30, 0x38]) :
    ∃ r : Reg, r.offset = o ∧ r ≠ .cmd ∧ r ≠ .operand := by
  have ho : o % 8 = 0 ∧ o < 0x40 ∧ 0x10 ≤ o := by
    revert o
    decide
  obtain ⟨h8, hlt, hge⟩ := ho
  obtain ⟨r, rfl⟩ := (exists_reg_offset_iff o).mpr ⟨h8, hlt⟩
  refine ⟨r, rfl, ?_, ?_⟩ <;> (rintro rfl; exact absurd hge (by decide))

theorem and_append_eq_zero {m n : Nat} {x x' : BitVec m} {y y' : BitVec n} (hx : x &&& x' = 0) (hy : y &&& y' = 0) :
    (x ++ y) &&& (x' ++ y') = 0 := by
  rw [BitVec.and_append, hx, hy]
  exact BitVec.zero_append_zero

/-- The word is cut at R24's positions: a reserved piece of it is 0, and over a field the mask is 0. -/
theorem statusWord_and_reserved (s : State) : s.statusWord &&& 0xFFFFFFFFFEC0FC0E#64 = 0 := by
  have hmask : 0xFFFFFFFFFEC0FC0E#64 =
      BitVec.allOnes 39 ++ 0#1 ++ BitVec.allOnes 2 ++ 0#6 ++ BitVec.allOnes 6 ++ 0#2 ++ 0#4 ++
        BitVec.allOnes 3 ++ 0#1 := by
    decide
  have reserved {n : Nat} (y : BitVec n) : 0#n &&& y = 0 := BitVec.zero_and
  have field {n : Nat} (x : BitVec n) : x &&& 0#n = 0 := BitVec.and_zero
  rw [hmask]
  exact and_append_eq_zero (and_append_eq_zero (and_append_eq_zero (and_append_eq_zero (and_append_eq_zero
    (and_append_eq_zero (and_append_eq_zero (and_append_eq_zero (reserved _) (field _)) (reserved _))
      (field s.syndrome)) (reserved _)) (field s.dclass.code)) (field s.err.code)) (reserved _)) (field _)

/-- Settles O8: a store reaches a register that ignores it, 0x38 reads 0, and no field of STATUS has a reserved bit. -/
theorem readOnlyRegistersIgnoreStores : Obligations.ReadOnlyRegistersIgnoreStores := by
  unfold Obligations.ReadOnlyRegistersIgnoreStores
  refine ⟨?_, fun s es h => step_of_load (r := .reserved) h, statusWord_and_reserved⟩
  intro s es x o ho h
  obtain ⟨r, rfl, hcmd, hop⟩ := exists_readOnly_offset ho
  rw [step_of_store (r := r) h]
  exact hostStore_of_readOnly x _ hcmd hop

end Sys2Proof.Machine
end

section
/-!
PROOFS. The encoding of command words: a word is its three fields (R80), the decoder reads the opcode map (R87) from
them, and the encoder writes it into them.
-/

namespace Sys2Proof

/-! ### The fields of a word (R80) -/

section
variable (r : BitVec 59) (v : BitVec 1) (o : BitVec 4)

theorem reservedField_append : reservedField (r ++ v ++ o) = r :=
  (BitVec.extractLsb'_append_eq_of_le (by decide)).trans BitVec.extractLsb'_append_eq_left

theorem varField_append : varField (r ++ v ++ o) = v.getLsbD 0 :=
  (BitVec.getLsbD_append (x := r ++ v) (y := o)).trans (BitVec.getLsbD_append (x := r) (y := v))

theorem opField_append : opField (r ++ v ++ o) = o := BitVec.extractLsb'_append_eq_right

end

/-- The three fields cover the word. -/
theorem append_fields (w : Word) : reservedField w ++ BitVec.ofBool (varField w) ++ opField w = w := by
  have hvar : BitVec.ofBool (varField w) = w.extractLsb' 4 1 := by
    apply BitVec.eq_of_getLsbD_eq
    intro k hk
    obtain rfl : k = 0 := by omega
    simp [varField]
  rw [hvar, reservedField, opField]
  calc w.extractLsb' 5 59 ++ w.extractLsb' 4 1 ++ w.extractLsb' 0 4
      _ = w.extractLsb' 4 60 ++ w.extractLsb' 0 4 :=
        congrArg (· ++ w.extractLsb' 0 4) (BitVec.extractLsb'_append_extractLsb'_eq_extractLsb' rfl)
      _ = w.extractLsb' 0 64 := BitVec.extractLsb'_append_extractLsb'_eq_extractLsb' rfl
      _ = w := BitVec.extractLsb'_eq_self

/-- A word is the word of a command exactly when its reserved bits are 0 and it has the command's VAR and OP. -/
theorem eq_encode_iff (w : Word) (i : Instr) :
    w = encode i ↔ reservedField w = 0 ∧ varField w = i.var.getLsbD 0 ∧ opField w = i.op := by
  constructor
  · rintro rfl
    exact ⟨reservedField_append _ _ _, varField_append _ _ _, opField_append _ _ _⟩
  · rintro ⟨hres, hvar, hop⟩
    have hofBool : BitVec.ofBool (i.var.getLsbD 0) = i.var := by cases i <;> rfl
    rw [← append_fields w, hres, hvar, hop, hofBool]
    rfl

/-! ### The opcode map (R87) -/

/-- A cell of the opcode map holds a command exactly when it is the cell of the command's OP and VAR. -/
theorem decodeFields_eq_ok_iff (op : Nat) (var : Bool) (i : Instr) :
    decodeFields op var = .ok i ↔ op = i.op.toNat ∧ var = i.var.getLsbD 0 := by
  constructor
  · intro h
    unfold decodeFields at h
    split at h <;> cases h <;> exact ⟨rfl, rfl⟩
  · rintro ⟨rfl, rfl⟩
    cases i <;> rfl

/-- The decoder reads a command exactly from the fields of the command's word. -/
theorem decode_eq_ok_iff (w : Word) (i : Instr) : decode w = .ok i ↔ w = encode i := by
  rw [eq_encode_iff]
  unfold decode
  split
  next hres => simp [hres, decodeFields_eq_ok_iff, BitVec.toNat_inj, and_comm]
  next hres => exact iff_of_false nofun fun ⟨h, _, _⟩ => hres h

/-- Settles O1: a word is its fields, and the fifteen words are closed terms. -/
theorem decodesExactlyTheOpcodeMap : Obligations.DecodesExactlyTheOpcodeMap := by
  unfold Obligations.DecodesExactlyTheOpcodeMap
  exact ⟨decode_eq_ok_iff, by decide⟩

end Sys2Proof
end

section
/-!
PROOFS. The data positions (R82): `dataPos` lists in ascending order the indices that are not parity positions.
-/

namespace Sys2Proof.Machine

/-- The table of R82, one row per gap between parity positions. -/
theorem dataPos_cases (i : Nat) :
    (i = 0 ∧ dataPos i = 3) ∨ (1 ≤ i ∧ i ≤ 3 ∧ dataPos i = i + 4) ∨ (4 ≤ i ∧ i ≤ 10 ∧ dataPos i = i + 5) ∨
      (11 ≤ i ∧ i ≤ 25 ∧ dataPos i = i + 6) ∨ (26 ≤ i ∧ dataPos i = i + 7) := by
  unfold dataPos
  split_ifs <;> omega

theorem dataPos_strictMono : StrictMono dataPos := by
  intro i j hij
  have hi := dataPos_cases i
  have hj := dataPos_cases j
  omega

/-- The positions below W are those of the message bits below D. -/
theorem dataPos_lt_W_iff (v : Variant) (i : Nat) : dataPos i < v.W ↔ i < v.D := by
  have hi := dataPos_cases i
  cases v <;> simp only [Variant.W, Variant.D] <;> omega

/-- The table skips 0 and the powers of two up to 32, and nothing else. -/
theorem exists_dataPos_eq_iff (k : Nat) : (∃ i, dataPos i = k) ↔ k ∉ [0, 1, 2, 4, 8, 16, 32] := by
  simp only [List.mem_cons, List.not_mem_nil, or_false, not_or]
  constructor
  · rintro ⟨i, rfl⟩
    have hi := dataPos_cases i
    omega
  · intro hk
    obtain h | h | h | h | h : k = 3 ∨ (5 ≤ k ∧ k ≤ 7) ∨ (9 ≤ k ∧ k ≤ 15) ∨ (17 ≤ k ∧ k ≤ 31) ∨ 33 ≤ k := by omega
    · exact ⟨0, by have := dataPos_cases 0; omega⟩
    · exact ⟨k - 4, by have := dataPos_cases (k - 4); omega⟩
    · exact ⟨k - 5, by have := dataPos_cases (k - 5); omega⟩
    · exact ⟨k - 6, by have := dataPos_cases (k - 6); omega⟩
    · exact ⟨k - 7, by have := dataPos_cases (k - 7); omega⟩

/-- The data positions of a variant are the values of `dataPos` below W. -/
theorem getLsbD_pmask_eq_false_iff (v : Variant) {k : Nat} (hk : k < v.W) :
    v.pmask.getLsbD k = false ↔ ∃ i, dataPos i = k := by
  rw [exists_dataPos_eq_iff, ← Bool.not_eq_true, getLsbD_pmask v hk, not_iff_not]
  cases v with
  | h32 =>
    have hk' : k ≠ 32 := Nat.ne_of_lt hk
    simp [Variant.groups, Nat.exists_lt_succ_left, Nat.le_one_iff_eq_zero_or_eq_one, hk']
  | h64 => simp [Variant.groups, Nat.exists_lt_succ_left, Nat.le_one_iff_eq_zero_or_eq_one]

/-- Settles O14: the table gives the values, and `dataPos` is a strictly monotone map onto the data positions. -/
theorem dataPositionsAscend : Obligations.DataPositionsAscend := by
  unfold Obligations.DataPositionsAscend
  refine ⟨⟨rfl, rfl, rfl, rfl, ?rows⟩, fun v => ⟨?below, fun i j hij _ => dataPos_strictMono hij, ?onto⟩⟩
  case rows =>
    refine ⟨?_, ?_, ?_⟩ <;>
    · intro i _ _
      have hi := dataPos_cases i
      omega
  case below =>
    intro i hi
    have hW := (dataPos_lt_W_iff v i).mpr hi
    exact ⟨hW, (getLsbD_pmask_eq_false_iff v hW).mpr ⟨i, rfl⟩⟩
  case onto =>
    intro k hk hdata
    obtain ⟨i, rfl⟩ := (getLsbD_pmask_eq_false_iff v hk).mp hdata
    exact ⟨i, (dataPos_lt_W_iff v i).mp hk, rfl⟩

end Sys2Proof.Machine
end

section
/-!
PROOFS. bit_scatter_gather: the bits of an expanded word (R100) and of a compressed message (R101), the two as inverse
maps (R102), and the commands EXPAND and COMPRESS (R104 to R107).
-/

namespace Sys2Proof.Machine

/-! ### The loops, bit by bit (R100, R101) -/

theorem getLsbD_gather {w : Nat} (d : Nat) (c : BitVec w) (n i : Nat) :
    (gather d c n).getLsbD i = (decide (i < n ∧ i < d) && c.getLsbD (dataPos i)) := by
  induction n with
  | zero => simp [gather]
  | succ n ih =>
    rw [gather_succ, getLsbD_assignBit, ih]
    by_cases hi : i = n
    · simp [hi]
    · have hlt : i < n + 1 ↔ i < n := by omega
      simp [hi, hlt]

/-- No two message bits share a position, so a later round of the loop leaves an earlier bit. -/
theorem getLsbD_scatter_dataPos {d : Nat} (w : Nat) (m : BitVec d) (n i : Nat) :
    (scatter w m n).getLsbD (dataPos i) = (decide (i < n ∧ dataPos i < w) && m.getLsbD i) := by
  induction n with
  | zero => simp [scatter]
  | succ n ih =>
    rw [scatter_succ, getLsbD_assignBit, ih]
    by_cases hi : i = n
    · simp [hi]
    · have hpos : dataPos i ≠ dataPos n := dataPos_strictMono.injective.ne hi
      have hlt : i < n + 1 ↔ i < n := by omega
      simp [hpos, hlt]

theorem getLsbD_scatter_of_ne_dataPos {d : Nat} (w : Nat) (m : BitVec d) (n : Nat) {k : Nat}
    (hk : ∀ i, dataPos i ≠ k) : (scatter w m n).getLsbD k = false := by
  induction n with
  | zero => simp [scatter]
  | succ n ih => rw [scatter_succ, getLsbD_assignBit, if_neg fun h => hk n h.1.symm, ih]

/-! ### expand and compress, bit by bit (R100, R101) -/

theorem getLsbD_compressW (v : Variant) (c : BitVec v.W) {i : Nat} (hi : i < v.D) :
    (compressW v c).getLsbD i = c.getLsbD (dataPos i) := by
  rw [compressW, getLsbD_gather]
  simp [hi]

theorem getLsbD_expandW_dataPos (v : Variant) (m : BitVec v.D) {i : Nat} (hi : i < v.D) :
    (expandW v m).getLsbD (dataPos i) = m.getLsbD i := by
  rw [expandW, getLsbD_scatter_dataPos]
  simp [hi, (dataPos_lt_W_iff v i).mpr hi]

theorem getLsbD_expandW_of_parity (v : Variant) (m : BitVec v.D) {k : Nat} (hk : v.pmask.getLsbD k = true) :
    (expandW v m).getLsbD k = false := by
  refine getLsbD_scatter_of_ne_dataPos _ m _ fun i hi => ?_
  have hdata := (getLsbD_pmask_eq_false_iff v (BitVec.lt_of_getLsbD hk)).mpr ⟨i, hi⟩
  exact Bool.false_ne_true (hdata.symm.trans hk)

/-! ### The masks (R31) -/

/-- Clearing the parity positions keeps the data bits. -/
theorem getLsbD_and_dmask_dataPos (v : Variant) (c : BitVec v.W) {i : Nat} (hi : i < v.D) :
    (c &&& v.dmask).getLsbD (dataPos i) = c.getLsbD (dataPos i) := by
  have hW := (dataPos_lt_W_iff v i).mpr hi
  rw [dmask_eq_not_pmask, BitVec.getLsbD_and, BitVec.getLsbD_not, (getLsbD_pmask_eq_false_iff v hW).mpr ⟨i, rfl⟩]
  simp [hW]

theorem and_dmask_of_and_pmask_eq_zero {v : Variant} {c : BitVec v.W} (h : c &&& v.pmask = 0) : c &&& v.dmask = c := by
  have hsplit : (c &&& v.pmask) ||| (c &&& v.dmask) = c := by
    rw [dmask_eq_not_pmask, ← BitVec.and_or_distrib_left]
    simp
  simpa [h] using hsplit

/-- A word of W bits is its parity bits and its data bits, one for each message bit. -/
theorem eq_of_parity_of_dataPos {v : Variant} {a b : BitVec v.W}
    (hparity : ∀ k, v.pmask.getLsbD k = true → a.getLsbD k = b.getLsbD k)
    (hdata : ∀ i, i < v.D → a.getLsbD (dataPos i) = b.getLsbD (dataPos i)) : a = b := by
  apply BitVec.eq_of_getLsbD_eq
  intro k hk
  cases hp : v.pmask.getLsbD k with
  | true => exact hparity k hp
  | false =>
    obtain ⟨i, rfl⟩ := (getLsbD_pmask_eq_false_iff v hk).mp hp
    exact hdata i ((dataPos_lt_W_iff v i).mp hk)

/-! ### Inverse maps (R102) -/

theorem compressW_and_dmask (v : Variant) (c : BitVec v.W) : compressW v (c &&& v.dmask) = compressW v c := by
  apply BitVec.eq_of_getLsbD_eq
  intro i hi
  rw [getLsbD_compressW v _ hi, getLsbD_compressW v _ hi, getLsbD_and_dmask_dataPos v c hi]

theorem expandW_and_pmask (v : Variant) (m : BitVec v.D) : expandW v m &&& v.pmask = 0 := by
  apply BitVec.eq_of_getLsbD_eq
  intro k _
  cases hp : v.pmask.getLsbD k with
  | true => simp [getLsbD_expandW_of_parity v m hp]
  | false => simp [hp]

theorem compressW_expandW (v : Variant) (m : BitVec v.D) : compressW v (expandW v m) = m := by
  apply BitVec.eq_of_getLsbD_eq
  intro i hi
  rw [getLsbD_compressW v _ hi, getLsbD_expandW_dataPos v m hi]

theorem expandW_compressW (v : Variant) (c : BitVec v.W) : expandW v (compressW v c) = c &&& v.dmask := by
  apply eq_of_parity_of_dataPos
  · intro k hp
    rw [getLsbD_expandW_of_parity v _ hp]
    simp [dmask_eq_not_pmask, hp]
  · intro i hi
    rw [getLsbD_expandW_dataPos v _ hi, getLsbD_compressW v c hi, getLsbD_and_dmask_dataPos v c hi]

/-- Settles O16: a gathered bit is the word's bit at its data position, and the data mask keeps those positions. -/
theorem compressReadsDataPositions : Obligations.CompressReadsDataPositions := by
  unfold Obligations.CompressReadsDataPositions
  exact fun v c => ⟨fun _ hi => getLsbD_compressW v c hi, (compressW_and_dmask v c).symm⟩

/-- Settles O17: expand and compress undo each other up to the parity positions, which are zero in an expanded word. -/
theorem scatterGatherAreInverse : Obligations.ScatterGatherAreInverse := by
  unfold Obligations.ScatterGatherAreInverse
  refine fun v => ⟨expandW_and_pmask v, compressW_expandW v, expandW_compressW v, fun c hc => ⟨compressW v c, ?_, ?_⟩⟩
  · exact (expandW_compressW v c).trans (and_dmask_of_and_pmask_eq_zero hc)
  · rintro m rfl
    exact (compressW_expandW v m).symm

/-! ### Operand and result widths (R85, R210, R211) -/

/-- The bits of a word from `start` up are not all 0 exactly when its value is at least 2^start. -/
theorem extractLsb'_ne_zero_iff {w start len : Nat} (h : w ≤ start + len) (x : BitVec w) :
    x.extractLsb' start len ≠ 0 ↔ 2 ^ start ≤ x.toNat := by
  have hlt : x.toNat / 2 ^ start < 2 ^ len := by
    rw [Nat.div_lt_iff_lt_mul (Nat.two_pow_pos start), ← Nat.pow_add']
    exact BitVec.toNat_lt_twoPow_of_le h
  have hval : (x.extractLsb' start len).toNat = x.toNat / 2 ^ start := by
    rw [BitVec.extractLsb'_toNat, Nat.shiftRight_eq_div_pow, Nat.mod_eq_of_lt hlt]
  rw [BitVec.toNat_ne, hval]
  simp [Nat.div_eq_zero_iff]

/-- Zero extension adds no value. -/
theorem toNat_setWidth_lt {n : Nat} (x : BitVec n) (w : Nat) : (x.setWidth w).toNat < 2 ^ n := by
  rw [BitVec.toNat_setWidth]
  exact (Nat.mod_le _ _).trans_lt x.isLt

/-! ### EXPAND and COMPRESS (R104 to R107) -/

theorem expandCommand_of_lt {v : Variant} {s : State} (h : s.operand.toNat < 2 ^ v.D) :
    expandCommand v s = s.finish ((expandW v (s.operand.setWidth v.D)).setWidth 64) := by
  rw [expandCommand, messageOperand_of_lt h]

theorem expandCommand_of_ge {v : Variant} {s : State} (h : 2 ^ v.D ≤ s.operand.toNat) :
    expandCommand v s = s.raise .inputTooWide := by
  rw [expandCommand, messageOperand_of_ge h]

theorem compressCommand_of_lt {v : Variant} {s : State} (h : s.operand.toNat < 2 ^ v.W) :
    compressCommand v s = s.finish ((compressW v (s.operand.setWidth v.W)).setWidth 64) := by
  rw [compressCommand, codewordOperand_of_lt h]

theorem compressCommand_of_ge {v : Variant} {s : State} (h : 2 ^ v.W ≤ s.operand.toNat) :
    compressCommand v s = s.raise .operandTooWide := by
  rw [compressCommand, codewordOperand_of_ge h]

theorem compressCommand_h64 (s : State) :
    compressCommand .h64 s = s.finish ((compressW .h64 s.operand).setWidth 64) := by
  rw [compressCommand, codewordOperand_h64]

/-- The example of R105. -/
theorem expandW_h64_example : expandW .h64 0xDEADBEEF = 0x0000006EAB6EDCE8 := by decide

/-- Settles O28: EXPAND's two outcomes, the value of the bits past the message, and closed words. -/
theorem expand32Command : Obligations.Expand32Command := by
  unfold Obligations.Expand32Command
  refine ⟨by decide, ?message, ?tooWide, fun s => (extractLsb'_ne_zero_iff (by decide) s.operand).symm,
    by decide, by decide, by decide, by decide, ?upper⟩
  case message =>
    intro s h
    rw [← BitVec.setWidth_eq_extractLsb' (by decide)]
    exact congrArg Host.Outcome.next (expandCommand_of_lt (v := .h32) h)
  case tooWide => exact fun s h => congrArg Host.Outcome.next (expandCommand_of_ge (v := .h32) h)
  case upper =>
    intro m
    by_contra hne
    exact Nat.not_le.mpr (toNat_setWidth_lt (expandW .h32 m) 64) ((extractLsb'_ne_zero_iff (by decide) _).mp hne)

/-- Settles O29: as for O28, where the expanded word already has the width of RESULT. -/
theorem expand64Command : Obligations.Expand64Command := by
  unfold Obligations.Expand64Command
  refine ⟨by decide, ?message, ?tooWide, fun s => (extractLsb'_ne_zero_iff (by decide) s.operand).symm,
    by decide, by decide, by decide, rfl, expandW_h64_example⟩
  case message =>
    intro s h
    rw [← BitVec.setWidth_eq_extractLsb' (by decide), ← BitVec.setWidth_eq (expandW .h64 _)]
    exact congrArg Host.Outcome.next (expandCommand_of_lt (v := .h64) h)
  case tooWide => exact fun s h => congrArg Host.Outcome.next (expandCommand_of_ge (v := .h64) h)

/-- Settles O30: COMPRESS's two outcomes, told apart by OPERAND[63:32], and closed words. -/
theorem compress32Command : Obligations.Compress32Command := by
  unfold Obligations.Compress32Command
  have hwide (s : State) : s.operand.extractLsb' 32 32 ≠ 0 ↔ 2 ^ 32 ≤ s.operand.toNat :=
    extractLsb'_ne_zero_iff (by decide) s.operand
  refine ⟨by decide, ?message, ?tooWide, hwide, by decide, by decide, by decide, by decide, by decide,
    fun c => toNat_setWidth_lt _ 64⟩
  case message =>
    intro s h
    have hlt : s.operand.toNat < 2 ^ 32 := Nat.not_le.mp fun hge => (hwide s).mpr hge h
    rw [← BitVec.setWidth_eq_extractLsb' (by decide)]
    exact congrArg Host.Outcome.next (compressCommand_of_lt (v := .h32) hlt)
  case tooWide => exact fun s h => congrArg Host.Outcome.next (compressCommand_of_ge (v := .h32) ((hwide s).mp h))

/-- Settles O31: COMPRESS has one outcome on 64-bit words; the last closed word is encoded from its expansion. -/
theorem compress64Command : Obligations.Compress64Command := by
  unfold Obligations.Compress64Command
  refine ⟨by decide, fun s => congrArg Host.Outcome.next (compressCommand_h64 s),
    by decide, by decide, by decide, by decide, by decide, ?encoded, fun c => toNat_setWidth_lt _ 64⟩
  case encoded =>
    rw [encodeW, expandW_h64_example]
    decide

end Sys2Proof.Machine
end

section
/-!
PROOFS. syndrome_calculator: check as an XOR-fold and its bound (R120), the linearity of check and par and their values on
a single bit (R122), and the commands CHECK (R123, R124).
-/

namespace Sys2Proof.Machine

/-! ### The loop of check (R120) -/

/-- The loop skips the clear bits, so it folds over the indices of the set ones. -/
theorem syndromeBelow_eq_foldl {w : Nat} (c : BitVec w) (n : Nat) :
    syndromeBelow c n =
      ((List.range n).filter (fun i => c.getLsbD i)).foldl (fun acc i => acc ^^^ BitVec.ofNat 6 i) 0#6 := by
  induction n with
  | zero => rfl
  | succ n ih =>
    rw [syndromeBelow_succ, List.range_succ, List.filter_append, List.foldl_append, ← ih]
    cases hn : c.getLsbD n <;> simp [hn]

/-- Indices below a power of two have no bit at or above it, and an XOR adds none. -/
theorem toNat_syndromeBelow_lt {w : Nat} (c : BitVec w) {n k : Nat} (hn : n ≤ 2 ^ k) :
    (syndromeBelow c n).toNat < 2 ^ k := by
  induction n with
  | zero => exact Nat.two_pow_pos k
  | succ n ih =>
    have hacc := ih (Nat.le_of_succ_le hn)
    rw [syndromeBelow_succ]
    split
    · have hindex : (BitVec.ofNat 6 n).toNat < 2 ^ k := (Nat.mod_le n _).trans_lt hn
      exact Nat.xor_lt_two_pow hacc hindex
    · exact hacc

/-- An index that only the first word has. -/
theorem xor_xor_right_comm (x y i : BitVec 6) : (x ^^^ y) ^^^ i = (x ^^^ i) ^^^ y := by
  ac_rfl

/-- An index that both words have. -/
theorem xor_xor_xor_cancel_right (x y i : BitVec 6) : (x ^^^ i) ^^^ (y ^^^ i) = x ^^^ y := by
  rw [BitVec.xor_comm y, BitVec.xor_assoc, ← BitVec.xor_assoc i, BitVec.xor_self, BitVec.zero_xor]

theorem syndromeBelow_xor {w : Nat} (a b : BitVec w) (n : Nat) :
    syndromeBelow (a ^^^ b) n = syndromeBelow a n ^^^ syndromeBelow b n := by
  induction n with
  | zero => exact BitVec.xor_zero.symm
  | succ n ih =>
    simp only [syndromeBelow_succ, BitVec.getLsbD_xor, ih]
    cases a.getLsbD n <;> cases b.getLsbD n
    case false.false => rfl
    case false.true => exact BitVec.xor_assoc _ _ _
    case true.false => exact xor_xor_right_comm _ _ _
    case true.true => exact (xor_xor_xor_cancel_right _ _ _).symm

/-- The values of a loop of which only round `b` changes anything. -/
theorem loop_eq_of_single_round {α : Type} {f : Nat → α} {b : Nat} {x : α} (hround : f b = f 0 → f (b + 1) = x)
    (hskip : ∀ n, n ≠ b → f (n + 1) = f n) (n : Nat) : f n = if b < n then x else f 0 := by
  induction n with
  | zero => rfl
  | succ n ih =>
    obtain h | rfl | h := Nat.lt_trichotomy b n
    · rw [hskip n h.ne', ih, if_pos h, if_pos (Nat.lt_succ_of_lt h)]
    · rw [if_pos (Nat.lt_succ_self b)]
      exact hround (ih.trans (if_neg (Nat.lt_irrefl b)))
    · rw [hskip n h.ne, ih, if_neg h.not_gt, if_neg (Nat.not_lt.mpr h)]

theorem syndromeBelow_twoPow {w b : Nat} (hb : b < w) (n : Nat) :
    syndromeBelow (BitVec.twoPow w b) n = if b < n then BitVec.ofNat 6 b else 0#6 := by
  refine loop_eq_of_single_round (f := syndromeBelow (BitVec.twoPow w b)) (fun h => ?_) (fun n hn => ?_) n
  · simp [syndromeBelow, hb, h]
  · simp [syndromeBelow_succ, hn.symm]

/-! ### The loop of popcount (R121) -/

theorem popcountBelow_twoPow {w b : Nat} (hb : b < w) (n : Nat) :
    popcountBelow (BitVec.twoPow w b) n = if b < n then 1 else 0 := by
  refine loop_eq_of_single_round (f := popcountBelow (BitVec.twoPow w b)) (fun h => ?_) (fun n hn => ?_) n
  · simp [popcountBelow, hb, h]
  · simp [popcountBelow_succ, hn.symm]

theorem bodd_popcountBelow_xor {w : Nat} (a b : BitVec w) (n : Nat) :
    (popcountBelow (a ^^^ b) n).bodd = ((popcountBelow a n).bodd ^^ (popcountBelow b n).bodd) := by
  induction n with
  | zero => simp [popcountBelow]
  | succ n ih =>
    simp only [popcountBelow_succ, BitVec.getLsbD_xor, Nat.bodd_add, ih]
    cases a.getLsbD n <;> cases b.getLsbD n <;> simp

theorem par_eq_bodd {w : Nat} (c : BitVec w) : par c = (popcount c).bodd := by
  rw [par, Nat.mod_two_of_bodd]
  cases (popcount c).bodd <;> rfl

/-! ### Laws of check and par (R120, R122) -/

theorem toNat_checkW_lt {v : Variant} (c : BitVec v.W) : (checkW c).toNat < v.W := by
  cases v with
  | h32 => exact toNat_syndromeBelow_lt (k := 5) c (Nat.le_refl 32)
  | h64 => exact toNat_syndromeBelow_lt (k := 6) c (Nat.le_refl 64)

theorem checkW_xor {w : Nat} (a b : BitVec w) : checkW (a ^^^ b) = checkW a ^^^ checkW b := syndromeBelow_xor a b w

theorem checkW_twoPow {w b : Nat} (hb : b < w) : checkW (BitVec.twoPow w b) = BitVec.ofNat 6 b :=
  (syndromeBelow_twoPow hb w).trans (if_pos hb)

/-- A flipped bit moves the syndrome by its index. -/
theorem checkW_xor_twoPow {w b : Nat} (c : BitVec w) (hb : b < w) :
    checkW (c ^^^ BitVec.twoPow w b) = checkW c ^^^ BitVec.ofNat 6 b := by
  rw [checkW_xor, checkW_twoPow hb]

theorem par_xor {w : Nat} (a b : BitVec w) : par (a ^^^ b) = (par a ^^ par b) := by
  simp only [par_eq_bodd]
  exact bodd_popcountBelow_xor a b w

theorem par_twoPow {w b : Nat} (hb : b < w) : par (BitVec.twoPow w b) = true := by
  rw [par_eq_bodd, popcount, popcountBelow_twoPow hb, if_pos hb]
  rfl

/-- Settles O20: the loops are linear bit by bit, and a word with one bit set has one round that does anything. -/
theorem syndromeAndParityAreLinear : Obligations.SyndromeAndParityAreLinear := by
  unfold Obligations.SyndromeAndParityAreLinear
  refine fun v => ⟨fun a b => ⟨checkW_xor a b, par_xor a b⟩, fun b hb => ⟨checkW_twoPow hb, par_twoPow hb⟩, ?_⟩
  intro c b hb hc
  rw [checkW_xor_twoPow c hb, hc]
  exact BitVec.zero_xor

/-- Settles O18: the loop is the fold, W is a power of two, and bit 0 adds the index 0. -/
theorem syndromeIsXorOfSetIndices : Obligations.SyndromeIsXorOfSetIndices := by
  unfold Obligations.SyndromeIsXorOfSetIndices
  refine fun v c => ⟨syndromeBelow_eq_foldl c v.W, toNat_checkW_lt c, ?_⟩
  have hW : 0 < v.W := by cases v <;> decide
  rw [checkW_xor_twoPow c hW]
  exact BitVec.xor_zero

/-! ### CHECK (R123, R124) -/

theorem checkCommand_of_lt {v : Variant} {s : State} (h : s.operand.toNat < 2 ^ v.W) :
    checkCommand v s =
      (s.setCheck (checkW (s.operand.setWidth v.W)) (par (s.operand.setWidth v.W))).finish
        ((checkW (s.operand.setWidth v.W)).setWidth 64) := by
  rw [checkCommand, codewordOperand_of_lt h]

theorem checkCommand_of_ge {v : Variant} {s : State} (h : 2 ^ v.W ≤ s.operand.toNat) :
    checkCommand v s = s.raise .operandTooWide := by
  rw [checkCommand, codewordOperand_of_ge h]

theorem checkCommand_h64 (s : State) :
    checkCommand .h64 s =
      (s.setCheck (checkW s.operand) (par s.operand)).finish ((checkW s.operand).setWidth 64) := by
  rw [checkCommand, codewordOperand_h64]

/-- The example of R124. -/
theorem encodeW_h64_example : encodeW .h64 0xDEADBEEF = 0x0000006FAB6EDCEF := by
  rw [encodeW, expandW_h64_example]
  decide

/-- Settles O32: CHECK's two outcomes, told apart by OPERAND[63:32], closed words, and the bound of O18. -/
theorem check32Command : Obligations.Check32Command := by
  unfold Obligations.Check32Command
  have hwide (s : State) : s.operand.extractLsb' 32 32 ≠ 0 ↔ 2 ^ 32 ≤ s.operand.toNat :=
    extractLsb'_ne_zero_iff (by decide) s.operand
  refine ⟨by decide, ?word, ?tooWide, hwide, by decide, by decide, by decide, by decide, by decide, by decide,
    by decide, by decide, by decide, by decide, by decide, toNat_checkW_lt (v := .h32)⟩
  case word =>
    intro s h
    have hlt : s.operand.toNat < 2 ^ 32 := Nat.not_le.mp fun hge => (hwide s).mpr hge h
    rw [← BitVec.setWidth_eq_extractLsb' (by decide)]
    exact congrArg Host.Outcome.next (checkCommand_of_lt (v := .h32) hlt)
  case tooWide => exact fun s h => congrArg Host.Outcome.next (checkCommand_of_ge (v := .h32) ((hwide s).mp h))

/-- Settles O33: CHECK has one outcome on 64-bit words, and RESULT is the zero-extended 6-bit syndrome. -/
theorem check64Command : Obligations.Check64Command := by
  unfold Obligations.Check64Command
  exact ⟨by decide, fun s => congrArg Host.Outcome.next (checkCommand_h64 s), by decide, by decide, by decide,
    by decide, by decide, by decide, by decide, by decide, by decide, by decide, by decide, by decide,
    encodeW_h64_example, fun c => toNat_setWidth_lt (checkW c) 64⟩

end Sys2Proof.Machine
end

section
/-!
PROOFS. secded_encoder: the commands ENCODE (R132, R133).
-/

namespace Sys2Proof.Machine

/-! ### The codewords of R133's corner cases -/

/-- A codeword from its expanded message and that word's syndrome, where evaluating all steps of R130 at once is too
deep. -/
theorem encodeW_of_steps {v : Variant} {m : BitVec v.D} (e : BitVec v.W) (syn : BitVec 6) (he : expandW v m = e)
    (hsyn : checkW e = syn) : encodeW v m = closeParity (flipGroups syn e v.groups) := by
  rw [encodeW, he, hsyn]

theorem encodeW_h64_zero : encodeW .h64 0 = 0 :=
  (encodeW_of_steps 0 0 (by decide) (by decide)).trans (by decide)

theorem encodeW_h64_one : encodeW .h64 1 = 0x000000000000000F :=
  (encodeW_of_steps 0x8 3 (by decide) (by decide)).trans (by decide)

theorem encodeW_h64_top : encodeW .h64 0x100000000000000 = 0x8000000100010117 :=
  (encodeW_of_steps 0x8000000000000000 63 (by decide) (by decide)).trans (by decide)

theorem encodeW_h64_allOnes : encodeW .h64 0x1FFFFFFFFFFFFFF = 0xFFFFFFFFFFFFFFFF :=
  (encodeW_of_steps 0xFFFFFFFEFFFEFEE8 63 rfl (by decide)).trans (by decide)

/-! ### ENCODE (R132, R133) -/

theorem encodeCommand_of_lt {v : Variant} {s : State} (h : s.operand.toNat < 2 ^ v.D) :
    encodeCommand v s = s.finish ((encodeW v (s.operand.setWidth v.D)).setWidth 64) := by
  rw [encodeCommand, messageOperand_of_lt h]

theorem encodeCommand_of_ge {v : Variant} {s : State} (h : 2 ^ v.D ≤ s.operand.toNat) :
    encodeCommand v s = s.raise .inputTooWide := by
  rw [encodeCommand, messageOperand_of_ge h]

/-- Settles O34: ENCODE's two outcomes, told apart by OPERAND against 2^26, and closed words. -/
theorem encode32Command : Obligations.Encode32Command := by
  unfold Obligations.Encode32Command
  refine ⟨by decide, ?message, ?tooWide, by decide, by decide, by decide, by decide⟩
  case message =>
    intro s h
    rw [← BitVec.setWidth_eq_extractLsb' (by decide)]
    exact congrArg Host.Outcome.next (encodeCommand_of_lt (v := .h32) h)
  case tooWide => exact fun s h => congrArg Host.Outcome.next (encodeCommand_of_ge (v := .h32) h)

/-- Settles O35: as for O34, where the codeword already has the width of RESULT. -/
theorem encode64Command : Obligations.Encode64Command := by
  unfold Obligations.Encode64Command
  refine ⟨by decide, ?message, ?tooWide, encodeW_h64_zero, encodeW_h64_one, encodeW_h64_top, by decide,
    encodeW_h64_allOnes, encodeW_h64_example⟩
  case message =>
    intro s h
    rw [← BitVec.setWidth_eq_extractLsb' (by decide), ← BitVec.setWidth_eq (encodeW .h64 _)]
    exact congrArg Host.Outcome.next (encodeCommand_of_lt (v := .h64) h)
  case tooWide => exact fun s h => congrArg Host.Outcome.next (encodeCommand_of_ge (v := .h64) h)

end Sys2Proof.Machine
end

section
/-!
PROOFS. secded_decoder: the rows of the decision table (R150) and the commands DECODE (R153, R154).
-/

namespace Sys2Proof.Machine

/-! ### The rows of the decision table (R26, R150) -/

theorem dclassOf_zero (p : Bool) : dclassOf 0 p = if p then .parityOnly else .clean := rfl

theorem dclassOf_of_ne_zero {s : BitVec 6} (hs : s ≠ 0) (p : Bool) :
    dclassOf s p = if p then .corrected else .uncorrectable := if_neg hs

/-- The row code of R26. -/
theorem code_dclassOf (s : BitVec 6) (p : Bool) :
    (dclassOf s p).code = BitVec.ofBool (decide (s ≠ 0)) ++ BitVec.ofBool p := by
  by_cases hs : s = 0
  · subst hs
    cases p <;> rfl
  · rw [dclassOf_of_ne_zero hs, decide_eq_true hs]
    cases p <;> rfl

theorem decodeW_clean {v : Variant} {c : BitVec v.W} (hs : checkW c = 0) (hp : par c = false) :
    decodeW v c = ⟨some (compressW v c), 0, false, .clean⟩ := by
  rw [decodeW, hs, hp, dclassOf_zero]
  rfl

theorem decodeW_parityOnly {v : Variant} {c : BitVec v.W} (hs : checkW c = 0) (hp : par c = true) :
    decodeW v c = ⟨some (compressW v c), 0, true, .parityOnly⟩ := by
  rw [decodeW, hs, hp, dclassOf_zero]
  rfl

theorem decodeW_corrected {v : Variant} {c : BitVec v.W} (hs : checkW c ≠ 0) (hp : par c = true) :
    decodeW v c =
      ⟨some (compressW v (c ^^^ BitVec.twoPow v.W (checkW c).toNat)), checkW c, true, .corrected⟩ := by
  rw [decodeW, hp, dclassOf_of_ne_zero hs]
  rfl

theorem decodeW_uncorrectable {v : Variant} {c : BitVec v.W} (hs : checkW c ≠ 0) (hp : par c = false) :
    decodeW v c = ⟨none, checkW c, false, .uncorrectable⟩ := by
  rw [decodeW, hp, dclassOf_of_ne_zero hs]
  rfl

/-- Only the fourth row gives no message. -/
theorem message_decodeW_eq_none_iff {v : Variant} {c : BitVec v.W} :
    (decodeW v c).message = none ↔ checkW c ≠ 0 ∧ par c = false := by
  by_cases hs : checkW c = 0 <;> cases hp : par c
  case pos.false => simp [decodeW_clean hs hp, hs]
  case pos.true => simp [decodeW_parityOnly hs hp]
  case neg.false => exact iff_of_true (by rw [decodeW_uncorrectable hs hp]) ⟨hs, rfl⟩
  case neg.true => simp [decodeW_corrected hs hp]

/-- A flipped parity bit leaves the message, because compress reads no parity position (R101). -/
theorem compressW_xor_twoPow_of_parity {v : Variant} (c : BitVec v.W) {k : Nat} (hk : v.pmask.getLsbD k = true) :
    compressW v (c ^^^ BitVec.twoPow v.W k) = compressW v c := by
  apply BitVec.eq_of_getLsbD_eq
  intro i hi
  have hne : k ≠ dataPos i := by
    rintro rfl
    have hdata := (getLsbD_pmask_eq_false_iff v ((dataPos_lt_W_iff v i).mpr hi)).mpr ⟨i, rfl⟩
    exact Bool.false_ne_true (hdata.symm.trans hk)
  rw [getLsbD_compressW v _ hi, getLsbD_compressW v _ hi]
  simp [hne]

/-- The remark of R150: where the syndrome names a group-parity bit, the correction leaves the message. -/
theorem message_decodeW_of_parity_position {v : Variant} {c : BitVec v.W} {k : Nat} (hk : k < v.groups)
    (hs : (checkW c).toNat = 2 ^ k) (hp : par c = true) : (decodeW v c).message = some (compressW v c) := by
  have hne : checkW c ≠ 0 := by
    rw [BitVec.toNat_ne, hs]
    exact (Nat.two_pow_pos k).ne'
  have hpmask : v.pmask.getLsbD (checkW c).toNat = true :=
    (getLsbD_pmask v (toNat_checkW_lt c)).mpr (.inr ⟨k, hk, hs⟩)
  rw [decodeW_corrected hne hp, compressW_xor_twoPow_of_parity c hpmask]

/-- Settles O24: a lemma per row of the table; the syndrome is an index of the word, and a parity position holds no
message bit. -/
theorem decodeFollowsTheDecisionTable : Obligations.DecodeFollowsTheDecisionTable := by
  unfold Obligations.DecodeFollowsTheDecisionTable
  refine fun v c => ⟨rfl, rfl, code_dclassOf _ _, ?clean, ?parityOnly, ?corrected, ?uncorrectable, toNat_checkW_lt c,
    fun _ => message_decodeW_of_parity_position⟩
  case clean => exact fun hs hp => decodeW_clean hs hp ▸ ⟨rfl, rfl⟩
  case parityOnly => exact fun hs hp => decodeW_parityOnly hs hp ▸ ⟨rfl, rfl⟩
  case corrected => exact fun hs hp => decodeW_corrected hs hp ▸ ⟨rfl, rfl⟩
  case uncorrectable => exact fun hs hp => decodeW_uncorrectable hs hp ▸ ⟨rfl, rfl⟩

/-! ### DECODE (R153, R154) -/

theorem decodedCommand_of_some {d : Nat} {r : Decoded d} {m : BitVec d} (s : State) (h : r.message = some m) :
    decodedCommand r s = (s.setDecode r.syndrome r.parity r.dclass).finish (m.setWidth 64) := by
  rw [decodedCommand, h]

/-- Where decode gives no message, the row DECODE writes is UNCORRECTABLE. -/
theorem decodedCommand_decodeW_of_none {v : Variant} {c : BitVec v.W} (s : State) (h : (decodeW v c).message = none) :
    decodedCommand (decodeW v c) s =
      (s.setDecode (decodeW v c).syndrome (decodeW v c).parity .uncorrectable).raise .uncorrectable := by
  obtain ⟨hs, hp⟩ := message_decodeW_eq_none_iff.mp h
  rw [decodeW_uncorrectable hs hp, decodedCommand]

theorem decodeCommand_of_lt {v : Variant} {s : State} (h : s.operand.toNat < 2 ^ v.W) :
    decodeCommand v s = decodedCommand (decodeW v (s.operand.setWidth v.W)) s := by
  rw [decodeCommand, codewordOperand_of_lt h]

theorem decodeCommand_of_ge {v : Variant} {s : State} (h : 2 ^ v.W ≤ s.operand.toNat) :
    decodeCommand v s = s.raise .operandTooWide := by
  rw [decodeCommand, codewordOperand_of_ge h]

theorem decodeCommand_h64 (s : State) : decodeCommand .h64 s = decodedCommand (decodeW .h64 s.operand) s := by
  rw [decodeCommand, codewordOperand_h64]

/-- Settles O36: DECODE's width check on OPERAND[63:32], the two outcomes on a codeword, and closed words. -/
theorem decode32Command : Obligations.Decode32Command := by
  unfold Obligations.Decode32Command
  have hwide (s : State) : s.operand.extractLsb' 32 32 ≠ 0 ↔ 2 ^ 32 ≤ s.operand.toNat :=
    extractLsb'_ne_zero_iff (by decide) s.operand
  have hword (s : State) (h : s.operand.extractLsb' 32 32 = 0) :
      decodeCommand .h32 s = decodedCommand (decodeW .h32 (s.operand.extractLsb' 0 32)) s := by
    have hlt : s.operand.toNat < 2 ^ 32 := Nat.not_le.mp fun hge => (hwide s).mpr hge h
    rw [← BitVec.setWidth_eq_extractLsb' (by decide)]
    exact decodeCommand_of_lt (v := .h32) hlt
  refine ⟨by decide, ?message, ?uncorrectable, fun c => message_decodeW_eq_none_iff (v := .h32), ?tooWide, hwide,
    by decide, by decide, by decide, by decide, by decide, by decide, by decide, by decide⟩
  case message =>
    exact fun s m h hm => congrArg Host.Outcome.next ((hword s h).trans (decodedCommand_of_some s hm))
  case uncorrectable =>
    exact fun s h hm => congrArg Host.Outcome.next ((hword s h).trans (decodedCommand_decodeW_of_none s hm))
  case tooWide => exact fun s h => congrArg Host.Outcome.next (decodeCommand_of_ge (v := .h32) ((hwide s).mp h))

/-- Settles O37: as for O36, where every OPERAND is a codeword. -/
theorem decode64Command : Obligations.Decode64Command := by
  unfold Obligations.Decode64Command
  refine ⟨by decide, ?message, ?uncorrectable, fun c => message_decodeW_eq_none_iff (v := .h64),
    by decide, by decide, by decide, by decide, by decide, by decide⟩
  case message =>
    exact fun s m hm => congrArg Host.Outcome.next ((decodeCommand_h64 s).trans (decodedCommand_of_some s hm))
  case uncorrectable =>
    exact fun s hm => congrArg Host.Outcome.next ((decodeCommand_h64 s).trans (decodedCommand_decodeW_of_none s hm))

end Sys2Proof.Machine
end

section
/-!
PROOFS. trim (R173): it drops the run of zero bytes that ends the frame, and keeps the first byte.
-/

namespace Sys2Proof.Machine

/-- The model's recursion from the front of the sequence is the library's drop from its back. -/
theorem dropTrailingZeros_eq_rdropWhile (bs : List Byte) : dropTrailingZeros bs = bs.rdropWhile (· = 0) := by
  induction bs with
  | nil => rfl
  | cons b bs ih =>
    rw [dropTrailingZeros, ih, List.rdropWhile, List.rdropWhile, List.reverse_cons, List.dropWhile_append]
    cases h : bs.reverse.dropWhile (· = 0) with
    | nil => by_cases hb : b = 0#8 <;> simp [hb]
    | cons t ts => cases hr : (t :: ts).reverse <;> simp_all

theorem dropTrailingZeros_append_zeros (bs : List Byte) (n : Nat) :
    dropTrailingZeros (bs ++ List.replicate n 0) = dropTrailingZeros bs := by
  induction n with
  | zero => rw [List.replicate_zero, List.append_nil]
  | succ n ih =>
    rw [List.replicate_succ', ← List.append_assoc, ← ih]
    simp only [dropTrailingZeros_eq_rdropWhile]
    exact List.rdropWhile_concat_pos _ _ _ rfl

/-- Zero bytes after a nonempty sequence are not seen by trim. -/
theorem trim_append_zeros {bs : List Byte} (h : bs ≠ []) (n : Nat) : trim (bs ++ List.replicate n 0) = trim bs := by
  cases bs with
  | nil => exact absurd rfl h
  | cons b bs => rw [List.cons_append, trim_cons, trim_cons, dropTrailingZeros_append_zeros]

/-- What trim drops are zeros. -/
theorem exists_trim_append (bs : List Byte) : ∃ zs : List Byte, trim bs ++ zs = bs ∧ ∀ z ∈ zs, z = 0 := by
  cases bs with
  | nil => exact ⟨[], rfl, nofun⟩
  | cons b bs =>
    refine ⟨bs.rtakeWhile (· = 0), ?_, fun z hz => by simpa using List.mem_rtakeWhile_imp hz⟩
    rw [trim_cons, dropTrailingZeros_eq_rdropWhile, List.cons_append, List.rdropWhile_append_rtakeWhile]

theorem length_trim_le (bs : List Byte) : (trim bs).length ≤ bs.length := by
  obtain ⟨zs, hzs, -⟩ := exists_trim_append bs
  exact List.IsPrefix.length_le ⟨zs, hzs⟩

/-- trim keeps whole exactly the sequences without a zero byte to drop. -/
theorem trim_eq_self_iff {bs : List Byte} (h : bs ≠ []) : trim bs = bs ↔ bs.length = 1 ∨ bs.getLastD 0 ≠ 0 := by
  obtain ⟨b, bs, rfl⟩ := List.exists_cons_of_ne_nil h
  rw [trim_cons, dropTrailingZeros_eq_rdropWhile, List.cons_inj_right, List.rdropWhile_eq_self_iff]
  cases bs with
  | nil => simp
  | cons c cs => simp [List.getLast_eq_getLastD, List.getLast?_cons]

theorem trim_trim (bs : List Byte) : trim (trim bs) = trim bs := by
  cases bs with
  | nil => rfl
  | cons b bs => simp only [trim_cons, dropTrailingZeros_eq_rdropWhile, List.rdropWhile_idempotent]

theorem trim_ne_nil {bs : List Byte} (h : bs ≠ []) : trim bs ≠ [] := by
  obtain ⟨b, bs, rfl⟩ := List.exists_cons_of_ne_nil h
  exact List.cons_ne_nil _ _

/-- Settles O45: j is the length of the trimmed sequence, which ends in a nonzero byte where it has more than one. -/
theorem trimDropsTheFinalZeroRun : Obligations.TrimDropsTheFinalZeroRun := by
  unfold Obligations.TrimDropsTheFinalZeroRun
  intro bs hbs
  obtain ⟨zs, hzs, hzero⟩ := exists_trim_append bs
  have hpos := List.length_pos_iff.mpr (trim_ne_nil hbs)
  have hlast := (trim_eq_self_iff (trim_ne_nil hbs)).mp (trim_trim bs)
  generalize trim bs = t at hzs hpos hlast ⊢
  subst hzs
  refine ⟨t.length, hpos, by simp, List.take_left.symm, ?zeros, ?least⟩
  case zeros =>
    intro i hi hi'
    rw [List.length_append] at hi'
    have hz : i - t.length < zs.length := by omega
    rw [List.getD_append_right _ _ _ _ hi, List.getD_eq_getElem _ _ hz]
    exact hzero _ (List.getElem_mem hz)
  case least =>
    intro j' hj hj'
    have hend : t.getLastD 0 ≠ 0 := hlast.resolve_left (by omega)
    refine ⟨t.length - 1, by omega, by simp; omega, ?_⟩
    rw [List.getD_append _ _ _ _ (by omega)]
    simpa [List.getLastD_eq_getLast?, List.getLast?_eq_getElem?, List.getD_eq_getElem?_getD] using hend

end Sys2Proof.Machine
end

section
/-!
PROOFS. Frames: the bits of a little-endian value (R52), the windows of a plain frame (R53), and the pieces of a byte
sequence that is written piece by piece (R171, R175).
-/

namespace Sys2Proof.Machine

/-! ### The geometry of a frame (R5) -/

theorem N_mul_D (v : Variant) : v.N * v.D = 8 * v.FIN := by cases v <;> rfl

theorem FOUT_eq (v : Variant) : v.FOUT = v.N * (v.W / 8) := by cases v <;> rfl

theorem eight_mul_W_div (v : Variant) : 8 * (v.W / 8) = v.W := by cases v <;> rfl

theorem D_pos (v : Variant) : 0 < v.D := by cases v <;> decide

theorem FIN_pos (v : Variant) : 0 < v.FIN := by cases v <;> decide

theorem FOUT_pos (v : Variant) : 0 < v.FOUT := by cases v <;> decide

/-- Bit i of window k is a bit of the windows below any n > k. -/
theorem window_index_lt {d k n i : Nat} (hk : k < n) (hi : i < d) : k * d + i < n * d := by
  have h := Nat.mul_le_mul_right d (Nat.succ_le_of_lt hk)
  rw [Nat.succ_mul] at h
  omega

/-! ### Little-endian values (R52) -/

/-- Bit j of a value is bit j mod 8 of byte j div 8. -/
theorem testBit_leValue (bs : List Byte) (j : Nat) :
    (leValue bs).testBit j = (bs.getD (j / 8) 0).getLsbD (j % 8) := by
  induction bs generalizing j with
  | nil => simp [leValue]
  | cons b bs ih =>
    have hval : leValue (b :: bs) = 2 ^ 8 * leValue bs + b.toNat := Nat.add_comm _ _
    rw [hval, Nat.testBit_two_pow_mul_add _ b.isLt]
    split
    next hj => rw [Nat.div_eq_of_lt hj, Nat.mod_eq_of_lt hj]; rfl
    next hj =>
      obtain ⟨i, rfl⟩ := Nat.exists_eq_add_of_le' (Nat.le_of_not_lt hj)
      rw [Nat.add_sub_cancel, ih, Nat.add_div_right i (by decide), Nat.add_mod_right]
      rfl

theorem leValue_leBytes (x n : Nat) : leValue (leBytes x n) = x % 2 ^ (8 * n) := by
  induction n generalizing x with
  | zero => simp [leBytes, leValue, Nat.mod_one]
  | succ n ih =>
    rw [leBytes, leValue, ih, BitVec.toNat_ofNat, Nat.mul_succ, Nat.add_comm (8 * n), Nat.pow_add, Nat.mod_mul]

theorem leValue_leBytes_of_lt {x n : Nat} (h : x < 2 ^ (8 * n)) : leValue (leBytes x n) = x := by
  rw [leValue_leBytes, Nat.mod_eq_of_lt h]

/-! ### Windows (R53) -/

theorem getLsbD_window (v : Variant) (x k : Nat) {i : Nat} (hi : i < v.D) :
    (window v x k).getLsbD i = x.testBit (k * v.D + i) := by
  rw [window, BitVec.getLsbD_ofNat, Nat.testBit_shiftRight]
  simp [hi]

/-- A window of a frame is made of the frame's bits, low bits first. -/
theorem getLsbD_window_leValue (v : Variant) (bs : List Byte) (k : Nat) {i : Nat} (hi : i < v.D) :
    (window v (leValue bs) k).getLsbD i = (bs.getD ((k * v.D + i) / 8) 0).getLsbD ((k * v.D + i) % 8) := by
  rw [getLsbD_window v _ _ hi, testBit_leValue]

/-- The N windows of a frame are all of it. -/
theorem eq_of_window_eq {v : Variant} {bs bs' : List Byte} (h : bs.length = v.FIN) (h' : bs'.length = v.FIN)
    (hw : ∀ k, k < v.N → window v (leValue bs) k = window v (leValue bs') k) : bs = bs' := by
  apply List.ext_getElem (h.trans h'.symm)
  intro j hj hj'
  apply BitVec.eq_of_getLsbD_eq
  intro i hi
  have hi' := Nat.mod_lt (8 * j + i) (D_pos v)
  have hk : (8 * j + i) / v.D < v.N := by
    rw [Nat.div_lt_iff_lt_mul (D_pos v), N_mul_D]
    omega
  have hbit := congrArg (BitVec.getLsbD · ((8 * j + i) % v.D)) (hw _ hk)
  have hdiv : (8 * j + i) / 8 = j := by omega
  have hmod : (8 * j + i) % 8 = i := by omega
  simp only [getLsbD_window_leValue v _ _ hi', Nat.div_add_mod', hdiv, hmod] at hbit
  rwa [List.getD_eq_getElem _ _ hj, List.getD_eq_getElem _ _ hj'] at hbit

section
variable (v : Variant) {y n : Nat} (m : BitVec v.D)

/-- Placing a message above the windows below n leaves them. -/
theorem window_or_shiftLeft_of_lt {k : Nat} (hk : k < n) :
    window v (y ||| m.toNat <<< (n * v.D)) k = window v y k := by
  apply BitVec.eq_of_getLsbD_eq
  intro i hi
  have hlt := window_index_lt hk hi
  rw [getLsbD_window v _ _ hi, getLsbD_window v _ _ hi, Nat.testBit_or, Nat.testBit_shiftLeft,
    decide_eq_false (Nat.not_le.mpr hlt), Bool.false_and, Bool.or_false]

/-- A message placed above a value of n windows is window n. -/
theorem window_or_shiftLeft_self (hy : y < 2 ^ (n * v.D)) : window v (y ||| m.toNat <<< (n * v.D)) n = m := by
  apply BitVec.eq_of_getLsbD_eq
  intro i hi
  have hlow : y.testBit (n * v.D + i) = false :=
    Nat.testBit_lt_two_pow (hy.trans_le (Nat.pow_le_pow_right (by decide) (Nat.le_add_right _ _)))
  rw [getLsbD_window v _ _ hi, Nat.testBit_or, hlow, Nat.testBit_shiftLeft, Nat.add_sub_cancel_left,
    decide_eq_true (Nat.le_add_right _ _), Bool.true_and, Bool.false_or]
  rfl

theorem or_shiftLeft_lt (hy : y < 2 ^ (n * v.D)) : y ||| m.toNat <<< (n * v.D) < 2 ^ ((n + 1) * v.D) := by
  apply Nat.or_lt_two_pow
  · exact hy.trans_le (Nat.pow_le_pow_right (by decide) (Nat.mul_le_mul_right _ n.le_succ))
  · rw [Nat.shiftLeft_eq, Nat.succ_mul, Nat.pow_add, Nat.mul_comm]
    exact Nat.mul_lt_mul_of_pos_left m.isLt (Nat.two_pow_pos _)

end

/-! ### Sequences written in pieces of one length (R171, R175) -/

section
variable {f piece : Nat → List Byte} {l : Nat} (hzero : f 0 = []) (hsucc : ∀ n, f (n + 1) = f n ++ piece n)
  (hlen : ∀ n, (piece n).length = l)
include hzero hsucc hlen

theorem length_of_pieces (n : Nat) : (f n).length = n * l := by
  induction n with
  | zero => rw [hzero, List.length_nil, Nat.zero_mul]
  | succ n ih => rw [hsucc, List.length_append, ih, hlen, Nat.succ_mul]

theorem frameSlice_of_pieces {n j : Nat} (hj : j < n) : frameSlice l (f n) j = piece j := by
  induction n with
  | zero => exact absurd hj (Nat.not_lt_zero j)
  | succ n ih =>
    have hn := length_of_pieces hzero hsucc hlen n
    obtain h | rfl := Nat.lt_succ_iff_lt_or_eq.mp hj
    · have hle := Nat.mul_le_mul_right l (Nat.succ_le_of_lt h)
      rw [Nat.succ_mul] at hle
      rw [← ih h, frameSlice, frameSlice, hsucc, List.drop_append_of_le_length (by omega),
        List.take_append_of_le_length (by rw [List.length_drop]; omega)]
    · rw [frameSlice, hsucc, ← hn, List.drop_left, ← hlen j, List.take_length]

end

/-! ### encFrame (R171) -/

theorem length_encFrame (v : Variant) (bs : List Byte) : (encFrame v bs).length = v.FOUT := by
  rw [FOUT_eq]
  exact length_of_pieces rfl (encodeWindows_succ v _) (fun _ => length_leBytes _ _) v.N

theorem codewordAt_encFrame (v : Variant) (bs : List Byte) {k : Nat} (hk : k < v.N) :
    codewordAt v (encFrame v bs) k = encodeW v (window v (leValue bs) k) := by
  have hpiece : frameSlice (v.W / 8) (encFrame v bs) k =
      leBytes (encodeW v (window v (leValue bs) k)).toNat (v.W / 8) :=
    frameSlice_of_pieces rfl (encodeWindows_succ v _) (fun _ => length_leBytes _ _) hk
  have hlt : (encodeW v (window v (leValue bs) k)).toNat < 2 ^ (8 * (v.W / 8)) := by
    rw [eight_mul_W_div]
    exact BitVec.isLt _
  calc codewordAt v (encFrame v bs) k
      _ = BitVec.ofNat v.W (leValue (frameSlice (v.W / 8) (encFrame v bs) k)) := rfl
      _ = encodeW v (window v (leValue bs) k) := by
        rw [hpiece, leValue_leBytes_of_lt hlt, BitVec.ofNat_toNat, BitVec.setWidth_eq]

/-- Settles O43: the encoded frame is its codewords' bytes, W/8 for each window. -/
theorem encodedFrameCodewords : Obligations.EncodedFrameCodewords := by
  unfold Obligations.EncodedFrameCodewords
  exact fun v bs _ => ⟨length_encFrame v bs, fun k hk =>
    ⟨codewordAt_encFrame v bs hk, fun _ hi => getLsbD_window_leValue v bs k hi⟩⟩

/-! ### decFrame (R172) -/

/-- Codeword k is the lowest that decodes to no message. -/
def FirstFailure (v : Variant) (cs : List Byte) (k : Nat) : Prop :=
  (decodeW v (codewordAt v cs k)).message = none ∧ ∀ j, j < k → (decodeW v (codewordAt v cs j)).message ≠ none

theorem FirstFailure.unique {v : Variant} {cs : List Byte} {k k' : Nat} (h : FirstFailure v cs k)
    (h' : FirstFailure v cs k') : k = k' := by
  obtain ⟨hnone, hbelow⟩ := h
  obtain ⟨hnone', hbelow'⟩ := h'
  obtain hlt | heq | hgt := Nat.lt_trichotomy k k'
  · exact absurd hnone (hbelow' k hlt)
  · exact heq
  · exact absurd hnone' (hbelow k' hgt)

/-- All the loop of R172 can answer after n codewords. -/
theorem decodeCodewords_cases (v : Variant) (cs : List Byte) (n : Nat) :
    (∃ k, k < n ∧ FirstFailure v cs k ∧ decodeCodewords v cs n = .uncorrectable k) ∨
    (∃ y, y < 2 ^ (n * v.D) ∧ decodeCodewords v cs n = .decoded y ∧
      ∀ k, k < n → (decodeW v (codewordAt v cs k)).message = some (window v y k)) := by
  induction n with
  | zero => exact .inr ⟨0, Nat.two_pow_pos _, rfl, nofun⟩
  | succ n ih =>
    obtain ⟨k, hk, hfail, hloop⟩ | ⟨y, hy, hloop, hwin⟩ := ih
    · exact .inl ⟨k, Nat.lt_succ_of_lt hk, hfail, by simp only [decodeCodewords, hloop]⟩
    cases hm : (decodeW v (codewordAt v cs n)).message with
    | none =>
      have hbelow (j : Nat) (hj : j < n) : (decodeW v (codewordAt v cs j)).message ≠ none := by simp [hwin j hj]
      exact .inl ⟨n, n.lt_succ_self, ⟨hm, hbelow⟩, by simp only [decodeCodewords, hloop, hm]⟩
    | some m =>
      refine .inr ⟨_, or_shiftLeft_lt v m hy, by simp only [decodeCodewords, hloop, hm], fun k hk => ?_⟩
      obtain h | rfl := Nat.lt_succ_iff_lt_or_eq.mp hk
      · rw [hwin k h, window_or_shiftLeft_of_lt v m h]
      · rw [hm, window_or_shiftLeft_self v m hy]

/-- All decFrame can answer. -/
theorem decFrame_cases (v : Variant) (cs : List Byte) :
    (∃ k, k < v.N ∧ FirstFailure v cs k ∧ decFrame v cs = .uncorrectable k) ∨
    (∃ bs : List Byte, bs.length = v.FIN ∧ decFrame v cs = .decoded bs ∧
      ∀ k, k < v.N → (decodeW v (codewordAt v cs k)).message = some (window v (leValue bs) k)) := by
  obtain ⟨k, hk, hfail, hloop⟩ | ⟨y, hy, hloop, hwin⟩ := decodeCodewords_cases v cs v.N
  · exact .inl ⟨k, hk, hfail, by simp only [decFrame, hloop]⟩
  · rw [N_mul_D] at hy
    refine .inr ⟨leBytes y v.FIN, length_leBytes _ _, by simp only [decFrame, hloop], ?_⟩
    rwa [leValue_leBytes_of_lt hy]

/-- Settles O44: of the two answers of decFrame, the first failing codeword decides which. -/
theorem decodedFrameWindows : Obligations.DecodedFrameWindows := by
  unfold Obligations.DecodedFrameWindows
  intro v cs
  obtain ⟨k₀, hk₀, hfail, hdec⟩ | ⟨bs, hlen, hdec, hwin⟩ := decFrame_cases v cs
  · refine ⟨fun k => ⟨?_, fun ⟨_, hk⟩ => ?_⟩, fun bs h => ?_⟩
    · intro h
      cases hdec.symm.trans h
      exact ⟨hk₀, hfail⟩
    · rw [hdec, hfail.unique hk]
    · cases hdec.symm.trans h
  · refine ⟨fun k => ⟨fun h => ?_, fun ⟨hk, hnone, _⟩ => ?_⟩, fun bs' h => ?_⟩
    · cases hdec.symm.trans h
    · simp [hwin k hk] at hnone
    · cases hdec.symm.trans h
      exact ⟨hlen, hwin⟩

end Sys2Proof.Machine
end

section
/-!
PROOFS. The round trip of a frame: an encoded word has syndrome and parity 0 and holds its message (R130, R131, R151), so
decFrame gives back what encFrame was given (R171, R172).
-/

namespace Sys2Proof.Machine

/-! ### Group parity, step 3 of R130 -/

theorem two_pow_groups (v : Variant) : 2 ^ v.groups = v.W := by cases v <;> rfl

theorem two_pow_lt_W {v : Variant} {k : Nat} (hk : k < v.groups) : 2 ^ k < v.W := by
  rw [← two_pow_groups]
  exact Nat.pow_lt_pow_right (by decide) hk

theorem getLsbD_pmask_two_pow {v : Variant} {k : Nat} (hk : k < v.groups) : v.pmask.getLsbD (2 ^ k) = true :=
  (getLsbD_pmask v (two_pow_lt_W hk)).mpr (.inr ⟨k, hk, rfl⟩)

/-- Flipping group-parity bit k flips bit k of the syndrome. -/
theorem getLsbD_checkW_flipGroups {v : Variant} (s : BitVec 6) (c : BitVec v.W) {n : Nat} (hn : n ≤ v.groups)
    {j : Nat} (hj : j < 6) :
    (checkW (flipGroups s c n)).getLsbD j = ((checkW c).getLsbD j ^^ (decide (j < n) && s.getLsbD j)) := by
  induction n with
  | zero => simp [flipGroups]
  | succ n ih =>
    have hstep : (checkW (flipGroups s c (n + 1))).getLsbD j =
        ((checkW (flipGroups s c n)).getLsbD j ^^ (decide (n = j) && s.getLsbD n)) := by
      rw [flipGroups_succ]
      cases hs : s.getLsbD n with
      | false => simp
      | true =>
        rw [if_pos rfl, checkW_xor_twoPow _ (two_pow_lt_W hn), BitVec.getLsbD_xor, BitVec.getLsbD_ofNat,
          Nat.testBit_two_pow]
        simp [hj]
    rw [hstep, ih (Nat.le_of_succ_le hn)]
    by_cases hnj : n = j
    · simp [hnj]
    · have hlt : j < n + 1 ↔ j < n := by omega
      simp [hnj, hlt]

/-- With its own syndrome, step 3 makes the syndrome of a word 0. -/
theorem checkW_flipGroups_checkW {v : Variant} (c : BitVec v.W) : checkW (flipGroups (checkW c) c v.groups) = 0 := by
  apply BitVec.eq_of_getLsbD_eq
  intro j hj
  rw [getLsbD_checkW_flipGroups _ _ le_rfl hj]
  by_cases hg : j < v.groups
  · simp [hg]
  · have hlt : (checkW c).toNat < 2 ^ j :=
      (toNat_checkW_lt c).trans_le (two_pow_groups v ▸ Nat.pow_le_pow_right (by decide) (Nat.le_of_not_lt hg))
    have hbit : (checkW c).getLsbD j = false := Nat.testBit_lt_two_pow hlt
    simp [hg, hbit]

/-- Step 3 flips no data bit. -/
theorem compressW_flipGroups {v : Variant} (s : BitVec 6) (c : BitVec v.W) {n : Nat} (hn : n ≤ v.groups) :
    compressW v (flipGroups s c n) = compressW v c := by
  induction n with
  | zero => rfl
  | succ n ih =>
    rw [flipGroups_succ]
    split
    next => rw [compressW_xor_twoPow_of_parity _ (getLsbD_pmask_two_pow hn), ih (Nat.le_of_succ_le hn)]
    next => exact ih (Nat.le_of_succ_le hn)

theorem getLsbD_flipGroups_zero {w : Nat} (s : BitVec 6) (c : BitVec w) (n : Nat) :
    (flipGroups s c n).getLsbD 0 = c.getLsbD 0 := by
  induction n with
  | zero => rfl
  | succ n ih =>
    rw [flipGroups_succ]
    split <;> simp [ih]

/-! ### Overall parity, step 4 of R130 -/

theorem W_pos (v : Variant) : 0 < v.W := by cases v <;> decide

theorem getLsbD_pmask_zero (v : Variant) : v.pmask.getLsbD 0 = true := (getLsbD_pmask v (W_pos v)).mpr (.inl rfl)

/-- On a word whose bit 0 is clear, step 4 flips bit 0 exactly when the parity is odd. -/
theorem closeParity_eq {w : Nat} {c : BitVec w} (h : c.getLsbD 0 = false) :
    closeParity c = if par c then c ^^^ BitVec.twoPow w 0 else c := by
  have hset : c ||| 1#w = c ^^^ BitVec.twoPow w 0 := by
    apply BitVec.eq_of_getLsbD_eq
    intro k hk
    obtain rfl | hk0 := Nat.eq_zero_or_pos k
    · rw [BitVec.getLsbD_or, BitVec.getLsbD_xor, h]
      simp [hk]
    · simp [hk0.ne', hk0.ne]
  rw [closeParity, hset]

/-! ### Encoded words (R131, R151) -/

/-- An encoded word before step 4, with its bit 0. -/
theorem exists_encodeW_eq (v : Variant) (m : BitVec v.D) :
    ∃ c : BitVec v.W, encodeW v m = (if par c then c ^^^ BitVec.twoPow v.W 0 else c) ∧ checkW c = 0 ∧
      compressW v c = m := by
  refine ⟨_, closeParity_eq ?_, checkW_flipGroups_checkW _, ?_⟩
  · rw [getLsbD_flipGroups_zero, getLsbD_expandW_of_parity v m (getLsbD_pmask_zero v)]
  · rw [compressW_flipGroups _ _ le_rfl, compressW_expandW]

theorem checkW_encodeW (v : Variant) (m : BitVec v.D) : checkW (encodeW v m) = 0 := by
  obtain ⟨c, hc, hcheck, -⟩ := exists_encodeW_eq v m
  rw [hc]
  split
  next => rw [checkW_xor_twoPow c (W_pos v), hcheck]; exact BitVec.xor_zero
  next => exact hcheck

theorem par_encodeW (v : Variant) (m : BitVec v.D) : par (encodeW v m) = false := by
  obtain ⟨c, hc, -, -⟩ := exists_encodeW_eq v m
  rw [hc]
  split
  next hp => rw [par_xor, par_twoPow (W_pos v), hp]; rfl
  next hp => exact Bool.eq_false_of_not_eq_true hp

theorem compressW_encodeW (v : Variant) (m : BitVec v.D) : compressW v (encodeW v m) = m := by
  obtain ⟨c, hc, -, hm⟩ := exists_encodeW_eq v m
  rw [hc]
  split
  next => rw [compressW_xor_twoPow_of_parity c (getLsbD_pmask_zero v), hm]
  next => exact hm

/-- An encoded word decodes to its message, in the CLEAN row. -/
theorem decodeW_encodeW (v : Variant) (m : BitVec v.D) : decodeW v (encodeW v m) = ⟨some m, 0, false, .clean⟩ := by
  rw [decodeW_clean (checkW_encodeW v m) (par_encodeW v m), compressW_encodeW]

/-! ### Encoded frames -/

/-- A frame comes back from its encoding. -/
theorem decFrame_encFrame {v : Variant} {bs : List Byte} (h : bs.length = v.FIN) :
    decFrame v (encFrame v bs) = .decoded bs := by
  have hmessage (k : Nat) (hk : k < v.N) :
      (decodeW v (codewordAt v (encFrame v bs) k)).message = some (window v (leValue bs) k) := by
    rw [codewordAt_encFrame v bs hk, decodeW_encodeW]
  obtain ⟨k, hk, ⟨hnone, -⟩, -⟩ | ⟨bs', hlen, hdec, hwin⟩ := decFrame_cases v (encFrame v bs)
  · rw [hmessage k hk] at hnone
    cases hnone
  · rw [hdec, eq_of_window_eq hlen h fun k hk => Option.some.inj ((hwin k hk).symm.trans (hmessage k hk))]

end Sys2Proof.Machine
end

section
/-!
PROOFS. Stream commands end (R179): every cycle ends the command or consumes a whole frame of a finite input.
-/

namespace Sys2Proof.Machine

/-! ### Iterated cycles -/

theorem cycles_succ (s : State) (n : Nat) : s.cycles (n + 1) = (s.cycles n).cycle := rfl

/-- The first of n + 1 cycles taken on its own. -/
theorem cycles_succ_eq_cycle_cycles (s : State) (n : Nat) : s.cycles (n + 1) = s.cycle.cycles n := by
  induction n with
  | zero => rfl
  | succ n ih => rw [cycles_succ, ih, cycles_succ]

theorem cycles_of_idle {s : State} (h : s.phase = .idle) (n : Nat) : s.cycles n = s := by
  induction n with
  | zero => rfl
  | succ n ih => rw [cycles_succ, ih, cycle_of_idle h]

/-- A stream whose cycles end it or consume `l` bytes of the input has ended after as many cycles as whole pieces of
`l` bytes are left, and one more. -/
theorem cycles_phase_idle {start : InputChannel → Phase} {l : Nat} (hl : 0 < l)
    (hcycle : ∀ (s : State) (ch : InputChannel), s.phase = start ch →
      s.cycle.phase = .idle ∨ (s.cycle.phase = start ⟨ch.src, ch.pos + l⟩ ∧ ch.pos + l ≤ ch.src.length))
    (s : State) (ch : InputChannel) (h : s.phase = start ch) :
    (s.cycles ((ch.src.length - ch.pos) / l + 1)).phase = .idle := by
  generalize hn : (ch.src.length - ch.pos) / l = n
  induction n generalizing s ch with
  | zero =>
    obtain hidle | ⟨-, hle⟩ := hcycle s ch h
    · exact hidle
    · have hlt := (Nat.div_eq_zero_iff_lt hl).mp hn
      omega
  | succ n ih =>
    rw [cycles_succ_eq_cycle_cycles]
    obtain hidle | ⟨hnext, hle⟩ := hcycle s ch h
    · rwa [cycles_of_idle hidle]
    · have hdiv := Nat.div_eq_sub_div hl (Nat.le_sub_of_add_le' hle)
      refine ih _ _ hnext ?_
      rw [← Nat.sub_sub]
      exact Nat.succ.inj (hdiv.symm.trans hn)

/-! ### What a cycle does to PHASE (R175, R176) -/

/-- A read of `l` bytes that returns no fewer returns `l`, all within the input. -/
theorem length_read_of_le {src : List Byte} {pos l : Nat} (hl : 0 < l) (h : l ≤ ((src.drop pos).take l).length) :
    ((src.drop pos).take l).length = l ∧ pos + l ≤ src.length := by
  rw [List.length_take, List.length_drop] at h ⊢
  omega

theorem cycle_phase_of_encStream {s : State} {v : Variant} {ch : InputChannel} (h : s.phase = .encStream v ch) :
    s.cycle.phase = .idle ∨
      (s.cycle.phase = .encStream v ⟨ch.src, ch.pos + v.FIN⟩ ∧ ch.pos + v.FIN ≤ ch.src.length) := by
  rw [cycle_of_encStream h]
  obtain ⟨_, -, he⟩ | ⟨-, -, he⟩ | ⟨r, -, hr, -, he⟩ := encCycle_cases v ch s
  · exact .inl (by rw [he]; rfl)
  · exact .inl (by rw [he]; rfl)
  obtain ⟨_, -, hw⟩ | ⟨-, hw⟩ := writeFrame_cases (encFrame v (padFrame v r))
    (afterEncode v r.length ⟨ch.src, ch.pos + r.length⟩) (s.takeDraw.addSin r.length)
  · exact .inl (by rw [he, hw]; rfl)
  rw [he, hw, afterEncode]
  split
  next => exact .inl rfl
  next hfull =>
    subst hr
    obtain ⟨hlen, hle⟩ := length_read_of_le (FIN_pos v) (Nat.le_of_not_lt hfull)
    exact .inr ⟨by rw [hlen], hle⟩

theorem cycle_phase_of_decStream {s : State} {v : Variant} {ch : InputChannel} (h : s.phase = .decStream v ch) :
    s.cycle.phase = .idle ∨
      (s.cycle.phase = .decStream v ⟨ch.src, ch.pos + v.FOUT⟩ ∧ ch.pos + v.FOUT ≤ ch.src.length) := by
  rw [cycle_of_decStream h]
  obtain ⟨_, -, he⟩ | ⟨-, -, he⟩ | ⟨_, -, -, -, -, he⟩ | ⟨_, _, -, -, -, -, -, he⟩ |
    ⟨r, bs, -, hr, -, hfull, -, he⟩ := decCycle_cases v ch s
  · exact .inl (by rw [he]; rfl)
  · exact .inl (by rw [he]; rfl)
  · exact .inl (by rw [he]; rfl)
  · exact .inl (by rw [he]; rfl)
  rw [he]
  obtain ⟨_, -, hw⟩ | ⟨-, hw⟩ := writeFrame_cases (trim bs)
    (fun t => { t with phase := .decStream v ⟨ch.src, ch.pos + r.length⟩ }) (s.takeDraw.addSin r.length)
  · exact .inl (by rw [hw]; rfl)
  subst hr
  obtain ⟨hlen, hle⟩ := length_read_of_le (FOUT_pos v) hfull
  exact .inr ⟨by rw [hw, hlen], hle⟩

/-- Settles O49: a cycle ends the stream or moves it on by a whole frame, and the input left is finite. -/
theorem streamsTerminate : Obligations.StreamsTerminate := by
  unfold Obligations.StreamsTerminate
  refine fun s v ch => ⟨fun h => ⟨cycle_phase_of_encStream h, ?_⟩, fun h => ⟨cycle_phase_of_decStream h, ?_⟩⟩
  · exact cycles_phase_idle (FIN_pos v) (fun _ _ => cycle_phase_of_encStream) s ch h
  · exact cycles_phase_idle (FOUT_pos v) (fun _ _ => cycle_phase_of_decStream) s ch h

end Sys2Proof.Machine
end

section
/-!
PROOFS. ENCSTREAM with every outcome a success (R175, R177): the frames of an input, and the state after n cycles.
-/

namespace Sys2Proof.Machine

/-! ### The frames of an input (R175, R177) -/

/-- A frame is started exactly while input is left: ⌈L/FIN⌉ is the least number of frames that hold L bytes. -/
theorem lt_frameCount_iff {v : Variant} {l n : Nat} : n < frameCount v l ↔ n * v.FIN < l := by
  have hle : frameCount v l ≤ n ↔ l ≤ v.FIN * n := ceilDiv_le_iff_le_mul (FIN_pos v)
  rw [← not_iff_not, Nat.not_lt, Nat.not_lt, hle, Nat.mul_comm]

theorem le_frameCount_mul (v : Variant) (l : Nat) : l ≤ frameCount v l * v.FIN :=
  Nat.not_lt.mp (mt lt_frameCount_iff.mpr (lt_irrefl _))

theorem length_frameSlice (l : Nat) (bs : List Byte) (j : Nat) :
    (frameSlice l bs j).length = min l (bs.length - j * l) := by
  rw [frameSlice, List.length_take, List.length_drop]

theorem frameSlice_ne_nil {l : Nat} (hl : 0 < l) {bs : List Byte} {j : Nat} (h : j * l < bs.length) :
    frameSlice l bs j ≠ [] := by
  rw [← List.length_pos_iff, length_frameSlice]
  omega

theorem encodedFrames_succ (v : Variant) (src : List Byte) (n : Nat) :
    encodedFrames v src (n + 1) = encodedFrames v src n ++ encFrame v (padFrame v (frameSlice v.FIN src n)) := rfl

theorem length_encodedFrames (v : Variant) (src : List Byte) (n : Nat) :
    (encodedFrames v src n).length = n * v.FOUT :=
  length_of_pieces rfl (encodedFrames_succ v src) (fun _ => length_encFrame _ _) n

theorem frameSlice_encodedFrames (v : Variant) (src : List Byte) {n j : Nat} (hj : j < n) :
    frameSlice v.FOUT (encodedFrames v src n) j = encFrame v (padFrame v (frameSlice v.FIN src j)) :=
  frameSlice_of_pieces rfl (encodedFrames_succ v src) (fun _ => length_encFrame _ _) hj

/-- N codewords of D bits are FIN bytes, so whole frames of codewords are whole frames of bytes (R177). -/
theorem ceilDiv_codewords (v : Variant) (l : Nat) :
    ((8 * l + v.D - 1) / v.D + v.N - 1) / v.N = frameCount v l := by
  have hN : 0 < v.N := by cases v <;> decide
  refine eq_of_forall_ge_iff fun n => ?_
  calc ((8 * l) ⌈/⌉ v.D) ⌈/⌉ v.N ≤ n
      _ ↔ 8 * l ≤ v.D * (v.N * n) := by rw [ceilDiv_le_iff_le_mul hN, ceilDiv_le_iff_le_mul (D_pos v)]
      _ ↔ 8 * l ≤ 8 * (v.FIN * n) := by rw [← Nat.mul_assoc, Nat.mul_comm v.D, N_mul_D, Nat.mul_assoc]
      _ ↔ l ≤ v.FIN * n := Nat.mul_le_mul_left_iff (by decide)
      _ ↔ frameCount v l ≤ n := (ceilDiv_le_iff_le_mul (FIN_pos v)).symm

/-! ### Cycles whose primitives succeed (R175, R176) -/

/-- The state after a successful read of n bytes and a successful write of bs, before PHASE moves on. -/
def State.transferred (s : State) (n : Nat) (bs : List Byte) : State :=
  (((s.takeDraw.addSin n).takeDraw.appendOutput bs).addSout bs.length).addFrame

section
variable (s : State) (n : Nat) (bs : List Byte)

@[simp] theorem State.transferred_err : (s.transferred n bs).err = s.err := by simp [State.transferred]
@[simp] theorem State.transferred_sinBytes : (s.transferred n bs).sinBytes = s.sinBytes + BitVec.ofNat 64 n := by
  simp [State.transferred]
@[simp] theorem State.transferred_soutBytes :
    (s.transferred n bs).soutBytes = s.soutBytes + BitVec.ofNat 64 bs.length := by simp [State.transferred]
@[simp] theorem State.transferred_sframes : (s.transferred n bs).sframes = s.sframes + 1 := by simp [State.transferred]
@[simp] theorem State.transferred_outputs :
    (s.transferred n bs).outputs = (s.lastOutput ++ bs) :: s.outputs.tail := by
  simp [State.transferred, State.lastOutput]
@[simp] theorem State.transferred_draws : (s.transferred n bs).draws = s.draws.tail.tail := by simp [State.transferred]

end

theorem afterEncode_eq (v : Variant) (n : Nat) (ch : InputChannel) (s : State) :
    afterEncode v n ch s = { s with phase := if n < v.FIN then .idle else .encStream v ch } := by
  unfold afterEncode
  split <;> rfl

section
variable {s : State} {v : Variant} {ch : InputChannel} {ds : List IoDraw}

theorem cycle_of_encStream_of_read_nil (hp : s.phase = .encStream v ch) (hd : s.draws = .ok :: ds)
    (hr : (ch.src.drop ch.pos).take v.FIN = []) : s.cycle = s.takeDraw.endStream := by
  rw [cycle_of_encStream hp]
  simp [encCycle, nextDraw_of_cons hd, chanRead_ok, hr]

theorem cycle_of_decStream_of_read_nil (hp : s.phase = .decStream v ch) (hd : s.draws = .ok :: ds)
    (hr : (ch.src.drop ch.pos).take v.FOUT = []) : s.cycle = s.takeDraw.endStream := by
  rw [cycle_of_decStream hp]
  simp [decCycle, nextDraw_of_cons hd, chanRead_ok, hr]

theorem nextDraw_takeDraw_addSin {d d' : IoDraw} (hd : s.draws = d :: d' :: ds) (n : Nat) :
    (s.takeDraw.addSin n).nextDraw = d' :=
  nextDraw_of_cons (ds := ds) (by rw [State.addSin_draws, State.takeDraw_draws, hd, List.tail_cons])

theorem cycle_of_encStream_of_ok {r : List Byte} (hp : s.phase = .encStream v ch) (hd : s.draws = .ok :: .ok :: ds)
    (hr : (ch.src.drop ch.pos).take v.FIN = r) (hne : r ≠ []) :
    s.cycle =
      { s.transferred r.length (encFrame v (padFrame v r)) with
        phase := if r.length < v.FIN then .idle else .encStream v ⟨ch.src, ch.pos + r.length⟩ } := by
  subst hr
  rw [cycle_of_encStream hp]
  obtain ⟨_, hfail, -⟩ | ⟨-, hnil, -⟩ | ⟨r, -, rfl, -, he⟩ := encCycle_cases v ch s
  · cases (nextDraw_of_cons hd).symm.trans hfail
  · exact absurd hnil hne
  · rw [he, writeFrame_of_ok _ _ (nextDraw_takeDraw_addSin hd _), afterEncode_eq, State.transferred]

theorem cycle_of_decStream_of_decoded {r bs : List Byte} (hp : s.phase = .decStream v ch)
    (hd : s.draws = .ok :: .ok :: ds) (hr : (ch.src.drop ch.pos).take v.FOUT = r) (hlen : r.length = v.FOUT)
    (hdec : decFrame v r = .decoded bs) :
    s.cycle =
      { s.transferred v.FOUT (trim bs) with phase := .decStream v ⟨ch.src, ch.pos + v.FOUT⟩ } := by
  have hok := writeFrame_of_ok (trim bs) (fun t => { t with phase := .decStream v ⟨ch.src, ch.pos + v.FOUT⟩ })
    (nextDraw_takeDraw_addSin hd v.FOUT)
  rw [cycle_of_decStream hp, State.transferred, ← hok]
  simp only [decCycle, nextDraw_of_cons hd, chanRead_ok, hr, hdec, hlen, (FOUT_pos v).ne', lt_irrefl, if_false]

end

/-! ### A run of successful cycles -/

/-- A stream command has written `out` without an error, and enough successes are listed for `k` more frames and the
read that ends the command. -/
structure State.Running (s : State) (os : List (List Byte)) (ds : List IoDraw) (k : Nat) (out : List Byte) : Prop where
  err : s.err = .noError
  outputs : s.outputs = out :: os
  draws : s.draws = List.replicate (2 * k + 1) .ok ++ ds

section
variable {s : State} {os : List (List Byte)} {ds : List IoDraw} {k : Nat} {out : List Byte}

theorem State.Running.draws_succ (h : s.Running os ds (k + 1) out) :
    s.draws = .ok :: .ok :: (List.replicate (2 * k + 1) .ok ++ ds) := by
  rw [h.draws, Nat.mul_succ, List.replicate_succ, List.replicate_succ]
  rfl

theorem State.Running.transferred (h : s.Running os ds (k + 1) out) (n : Nat) (bs : List Byte) (p : Phase) :
    ({ s.transferred n bs with phase := p } : State).Running os ds k (out ++ bs) where
  err := by simp [h.err]
  outputs := by simp [State.lastOutput, h.outputs]
  draws := by simp [h.draws_succ]

end

/-- ENCSTREAM after n frames: PHASE is IDLE only once a short frame has been read, and the counters count. -/
structure State.Encoding (s : State) (v : Variant) (src : List Byte) (n : Nat) : Prop where
  phase : s.phase = if n * v.FIN ≤ src.length then .encStream v ⟨src, n * v.FIN⟩ else .idle
  sinBytes : s.sinBytes = BitVec.ofNat 64 (min (n * v.FIN) src.length)
  soutBytes : s.soutBytes = BitVec.ofNat 64 (n * v.FOUT)
  sframes : s.sframes = BitVec.ofNat 64 n

section
variable {s : State} {v : Variant} {src : List Byte} {os : List (List Byte)} {ds : List IoDraw}

/-- One more frame while input is left. -/
theorem State.Encoding.cycle {n k : Nat} (h : s.Encoding v src n)
    (hrun : s.Running os ds (k + 1) (encodedFrames v src n)) (hn : n < frameCount v src.length) :
    s.cycle.Encoding v src (n + 1) ∧ s.cycle.Running os ds k (encodedFrames v src (n + 1)) := by
  have hleft := lt_frameCount_iff.mp hn
  have hp := h.phase
  rw [if_pos hleft.le] at hp
  rw [cycle_of_encStream_of_ok (r := frameSlice v.FIN src n) hp hrun.draws_succ rfl
    (frameSlice_ne_nil (FIN_pos v) hleft), length_frameSlice]
  refine ⟨⟨?phase, ?sin, ?sout, ?frames⟩, hrun.transferred _ _ _⟩
  case phase =>
    rw [Nat.succ_mul]
    by_cases hfull : n * v.FIN + v.FIN ≤ src.length
    · have hmin : min v.FIN (src.length - n * v.FIN) = v.FIN := by omega
      rw [if_pos hfull, hmin, if_neg (lt_irrefl _)]
    · rw [if_neg hfull, if_pos (by omega)]
  case sin =>
    rw [Nat.succ_mul, State.transferred_sinBytes, h.sinBytes, ← BitVec.ofNat_add]
    exact congrArg _ (by omega)
  case sout =>
    rw [Nat.succ_mul, State.transferred_soutBytes, h.soutBytes, length_encFrame, ← BitVec.ofNat_add]
  case frames =>
    rw [State.transferred_sframes, h.sframes, BitVec.ofNat_add]
    rfl

/-- The frames of an input, one cycle each. -/
theorem State.Encoding.cycles {n k : Nat} (h : s.Encoding v src 0)
    (hrun : s.Running os ds (frameCount v src.length) []) (hn : n + k = frameCount v src.length) :
    (s.cycles n).Encoding v src n ∧ (s.cycles n).Running os ds k (encodedFrames v src n) := by
  induction n generalizing k with
  | zero =>
    rw [Nat.zero_add] at hn
    exact ⟨h, hn ▸ hrun⟩
  | succ n ih =>
    obtain ⟨henc, hrun'⟩ := ih (k := k + 1) (by omega)
    exact henc.cycle hrun' (by omega)

/-- After the last frame one more cycle finds no input, or PHASE already IDLE: it changes only PHASE and the
outcomes. -/
theorem State.Encoding.last_cycle {out : List Byte} (h : s.Encoding v src (frameCount v src.length))
    (hrun : s.Running os ds 0 out) :
    s.cycle = s ∧ s.phase = .idle ∨ s.cycle = s.takeDraw.endStream := by
  have hend := le_frameCount_mul v src.length
  have hp := h.phase
  split at hp
  next => exact .inr (cycle_of_encStream_of_read_nil hp hrun.draws (by simp [hend]))
  next => exact .inl ⟨cycle_of_idle hp, hp⟩

end

/-- Settles O47: frame by frame the outputs and counters follow the input, and the cycle after the last frame ends the
command. -/
theorem encodedLength : Obligations.EncodedLength := by
  unfold Obligations.EncodedLength
  intro v src s os ds hp herr hout hsin hsout hframes hdraws
  have hzero : s.Encoding v src 0 := ⟨by simp [hp], by simp [hsin], by simp [hsout], by simp [hframes]⟩
  obtain ⟨henc, hrun⟩ := hzero.cycles ⟨herr, hout, hdraws⟩ (Nat.add_zero _)
  have hsin := henc.sinBytes
  rw [Nat.min_eq_right (le_frameCount_mul v src.length)] at hsin
  have hlen := length_encodedFrames v src (frameCount v src.length)
  have hcode := congrArg (· * v.N) (ceilDiv_codewords v src.length)
  rw [cycles_succ]
  obtain ⟨he, hidle⟩ | he := henc.last_cycle hrun <;> rw [he]
  · exact ⟨hidle, hrun.err, hrun.outputs, hlen, hsin, henc.soutBytes, henc.sframes, hcode⟩
  · exact ⟨rfl, hrun.err, hrun.outputs, hlen, hsin, henc.soutBytes, henc.sframes, hcode⟩

end Sys2Proof.Machine
end

section
/-!
PROOFS. DECSTREAM of an encoded stream (R176, R178): what it writes, and when that is the input.
-/

namespace Sys2Proof.Machine

/-! ### The frames of a round trip (R178) -/

theorem trimmedFrames_succ (v : Variant) (src : List Byte) (n : Nat) :
    trimmedFrames v src (n + 1) = trimmedFrames v src n ++ trim (padFrame v (frameSlice v.FIN src n)) := rfl

/-- Each frame of the encoded stream decodes to the padded slice it was made from. -/
theorem decFrame_encodedStream {v : Variant} {src : List Byte} {n : Nat} (hn : n < frameCount v src.length) :
    decFrame v (frameSlice v.FOUT (encodedStream v src) n) = .decoded (padFrame v (frameSlice v.FIN src n)) := by
  rw [encodedStream, frameSlice_encodedFrames v src hn]
  exact decFrame_encFrame (length_padFrame (List.length_take_le _ _))

section
variable {v : Variant} {src : List Byte} {n : Nat}

/-- Padding is not seen by trim where a slice has a byte. -/
theorem trim_padFrame_frameSlice (hn : n < frameCount v src.length) :
    trim (padFrame v (frameSlice v.FIN src n)) = trim (frameSlice v.FIN src n) :=
  trim_append_zeros (frameSlice_ne_nil (FIN_pos v) (lt_frameCount_iff.mp hn)) _

theorem take_succ_mul (l n : Nat) (bs : List Byte) :
    bs.take ((n + 1) * l) = bs.take (n * l) ++ frameSlice l bs n := by
  rw [Nat.succ_mul, List.take_add, frameSlice]

theorem length_trimmedFrames_le (hn : n ≤ frameCount v src.length) :
    (trimmedFrames v src n).length ≤ (src.take (n * v.FIN)).length := by
  induction n with
  | zero => exact Nat.zero_le _
  | succ n ih =>
    rw [trimmedFrames_succ, trim_padFrame_frameSlice hn, take_succ_mul, List.length_append, List.length_append]
    exact Nat.add_le_add (ih (Nat.le_of_succ_le hn)) (length_trim_le _)

/-- Two concatenations whose parts on the left are no longer than those on the right agree only part by part. -/
theorem append_eq_append_iff_of_length_le {a b c d : List Byte} (hab : a.length ≤ b.length)
    (hcd : c.length ≤ d.length) : a ++ c = b ++ d ↔ a = b ∧ c = d := by
  refine ⟨fun h => List.append_inj h ?_, fun ⟨h, h'⟩ => by rw [h, h']⟩
  have hlen := congrArg List.length h
  rw [List.length_append, List.length_append] at hlen
  omega

/-- The first n frames come back exactly when trim drops nothing of any of their slices. -/
theorem trimmedFrames_eq_take_iff (hn : n ≤ frameCount v src.length) :
    trimmedFrames v src n = src.take (n * v.FIN) ↔
      ∀ j, j < n → (frameSlice v.FIN src j).length = 1 ∨ (frameSlice v.FIN src j).getLastD 0 ≠ 0 := by
  induction n with
  | zero => simp [trimmedFrames]
  | succ n ih =>
    have hne := frameSlice_ne_nil (FIN_pos v) (lt_frameCount_iff.mp hn)
    rw [trimmedFrames_succ, trim_padFrame_frameSlice hn, take_succ_mul,
      append_eq_append_iff_of_length_le (length_trimmedFrames_le (Nat.le_of_succ_le hn)) (length_trim_le _),
      ih (Nat.le_of_succ_le hn), trim_eq_self_iff hne, Nat.forall_lt_succ_right]

theorem trimmedFrames_eq_self_iff (v : Variant) (src : List Byte) :
    trimmedFrames v src (frameCount v src.length) = src ↔
      ∀ j, j < frameCount v src.length →
        (frameSlice v.FIN src j).length = 1 ∨ (frameSlice v.FIN src j).getLastD 0 ≠ 0 := by
  rw [← trimmedFrames_eq_take_iff le_rfl, List.take_of_length_le (le_frameCount_mul v src.length)]

end

/-! ### The cycles of the round trip (R176) -/

/-- The frames of the encoded stream, one cycle each. -/
theorem decStream_cycles {s : State} {v : Variant} {src : List Byte} {os : List (List Byte)} {ds : List IoDraw}
    {n k : Nat} (hp : s.phase = .decStream v ⟨encodedStream v src, 0⟩)
    (hrun : s.Running os ds (frameCount v src.length) []) (hn : n + k = frameCount v src.length) :
    (s.cycles n).phase = .decStream v ⟨encodedStream v src, n * v.FOUT⟩ ∧
      (s.cycles n).Running os ds k (trimmedFrames v src n) := by
  induction n generalizing k with
  | zero =>
    rw [Nat.zero_add] at hn
    exact ⟨by rw [Nat.zero_mul]; exact hp, hn ▸ hrun⟩
  | succ n ih =>
    obtain ⟨hp', hrun'⟩ := ih (k := k + 1) (by omega)
    have hlt : n < frameCount v src.length := by omega
    have hlen : (frameSlice v.FOUT (encodedStream v src) n).length = v.FOUT := by
      rw [encodedStream, frameSlice_encodedFrames v src hlt, length_encFrame]
    rw [cycles_succ, cycle_of_decStream_of_decoded hp' hrun'.draws_succ rfl hlen (decFrame_encodedStream hlt),
      Nat.succ_mul]
    exact ⟨rfl, hrun'.transferred _ _ _⟩

/-- Settles O48: every frame decodes to the slice it was made from, padded; trim takes the padding off again, and
nothing more exactly from the slices named. -/
theorem streamRoundTrip : Obligations.StreamRoundTrip := by
  unfold Obligations.StreamRoundTrip
  refine fun v src => ⟨fun s os ds hp herr hout hdraws => ?_, trimmedFrames_eq_self_iff v src⟩
  obtain ⟨hp', hrun⟩ := decStream_cycles hp ⟨herr, hout, hdraws⟩ (Nat.add_zero _)
  have hend : ((encodedStream v src).drop (frameCount v src.length * v.FOUT)).take v.FOUT = [] := by
    rw [encodedStream, ← length_encodedFrames v src, List.drop_length, List.take_nil]
  rw [cycles_succ, cycle_of_decStream_of_read_nil hp' hrun.draws hend]
  exact ⟨rfl, hrun.err, hrun.outputs⟩

end Sys2Proof.Machine
end

section
/-!
PROOFS. Engine control: what a store to CMD does, accepted while the engine is idle (R200) and dropped while it is busy
(R21), and the NOP command (R201).
-/

namespace Sys2Proof.Machine

/-! ### A store to CMD -/

section
variable {s : State} {es : List Event} {w : Word}

/-- While the engine is idle the word is accepted (R200). -/
theorem step_of_command_idle (h : s.events = .host (.store Reg.cmd.access w) :: es) (hp : s.phase = .idle) :
    step s = acceptCommand w { s with events := es } := by
  have hb : ({ s with events := es } : State).busy = false := busy_eq_false.mpr hp
  simp [step_of_store h, hostStore, hb]

/-- While a stream command runs the word is dropped (R21). -/
theorem step_of_command_busy (h : s.events = .host (.store Reg.cmd.access w) :: es) (hp : s.phase ≠ .idle) :
    step s = .next { s with events := es } := by
  have hb : ({ s with events := es } : State).busy = true := Bool.eq_true_of_not_eq_false (mt busy_eq_false.mp hp)
  simp [step_of_store h, hostStore, hb]

/-- An accepted legal word runs its command, after CMD_LAST and ERR are written (R200). -/
theorem step_of_legal_command {i : Instr} (h : s.events = .host (.store Reg.cmd.access w) :: es)
    (hp : s.phase = .idle) (hw : decode w = .ok i) :
    step s = exec i { s with events := es, cmdLast := w, err := .noError } := by
  rw [step_of_command_idle h hp, acceptCommand_of_ok _ hw]
  rfl

/-- An accepted illegal word writes CMD_LAST and raises ILLEGAL_COMMAND (R212). -/
theorem step_of_illegal_command {e : IllegalWord} (h : s.events = .host (.store Reg.cmd.access w) :: es)
    (hp : s.phase = .idle) (hw : decode w = .error e) :
    step s = .next { s with events := es, cmdLast := w, err := .illegalCommand } := by
  rw [step_of_command_idle h hp, acceptCommand_of_error _ hw]
  rfl

end

/-! ### NOP (R201) -/

theorem exec_nop (s : State) : exec .nop s = .next { s with err := .noError } := rfl

/-- OP 0 with VAR 1 is no command (R88). -/
theorem decode_nopVariant : decode 0x10#64 = .error .nopVariant := rfl

/-- Settles O7: the word 0 decodes to NOP and 0x10 to nothing, so each store to CMD is one of accept's two outcomes, or
dropped. -/
theorem nopClearsOnlyTheError : Obligations.NopClearsOnlyTheError := by
  unfold Obligations.NopClearsOnlyTheError
  have hnop : decode 0#64 = .ok .nop := Laws.EncodeRoundTrip.nop
  refine ⟨rfl, exec_nop, ?stored, ⟨_, decode_nopVariant⟩, ?illegal, ?busy⟩
  case stored =>
    intro s es h hp
    rw [step_of_legal_command h hp hnop, exec_nop]
  case illegal =>
    intro s es h hp
    exact step_of_illegal_command h hp decode_nopVariant
  case busy =>
    intro s es h hp
    exact step_of_command_busy h hp

end Sys2Proof.Machine
end

section
/-!
PROOFS. Exceptions: the words the decoder rejects (R88), and what an accepted one changes (R212).
-/

namespace Sys2Proof.Machine

/-! ### Illegal words (R88) -/

/-- The cells of the opcode map that hold no command. -/
theorem exists_decodeFields_eq_error_iff (op : Nat) (var : Bool) :
    (∃ e, decodeFields op var = .error e) ↔ 8 ≤ op ∨ (op = 0 ∧ var = true) := by
  unfold decodeFields
  split <;> simp

/-- The decoder rejects a word for its reserved bits, or for its cell of the opcode map. -/
theorem exists_decode_eq_error_iff (w : Word) :
    (∃ e, decode w = .error e) ↔
      reservedField w ≠ 0 ∨ 8 ≤ (opField w).toNat ∨ (opField w = 0 ∧ varField w = true) := by
  have hop : opField w = 0 ↔ (opField w).toNat = 0 := BitVec.toNat_inj.symm
  unfold decode
  split
  next hres => rw [exists_decodeFields_eq_error_iff, hop, or_iff_right (not_not_intro hres)]
  next hres => exact iff_of_true ⟨_, rfl⟩ (.inl hres)

/-! ### An illegal word stored to CMD (R212) -/

/-- Settles O5: the decoder rejects the word, and accepting a rejected word only writes CMD_LAST and ERR. -/
theorem illegalCommandOnlyRecordsItsError : Obligations.IllegalCommandOnlyRecordsItsError := by
  unfold Obligations.IllegalCommandOnlyRecordsItsError
  refine ⟨rfl, fun s es w h hp hillegal => ?_⟩
  obtain ⟨e, hw⟩ := (exists_decode_eq_error_iff w).mpr hillegal
  exact step_of_illegal_command h hp hw

end Sys2Proof.Machine
end

section
/-!
PROOFS. The laws of the code: what expand, par and encode do bit by bit (R100, R121, R131), the distance of the code,
and how decode answers no, one and two flipped bits (R151).
-/

namespace Sys2Proof.Machine

/-- Settles O15: each message bit is scattered to its own position, and no position is a parity position. -/
theorem expandPlacesMessageBits : Obligations.ExpandPlacesMessageBits := by
  unfold Obligations.ExpandPlacesMessageBits
  exact fun v m => ⟨fun _ hi => getLsbD_expandW_dataPos v m hi, fun _ hk => getLsbD_expandW_of_parity v m hk⟩

/-! ### The set bits of a word (R121) -/

/-- The indices of the set bits of a word, in ascending order. -/
def setIndices {w : Nat} (c : BitVec w) : List Nat := (List.range w).filter (fun i => c.getLsbD i)

theorem popcountBelow_eq_length {w : Nat} (c : BitVec w) (n : Nat) :
    popcountBelow c n = ((List.range n).filter (fun i => c.getLsbD i)).length := by
  induction n with
  | zero => rfl
  | succ n ih =>
    rw [popcountBelow_succ, ih, List.range_succ, List.filter_append, List.length_append]
    cases hn : c.getLsbD n <;> simp [hn]

theorem popcount_eq_length {w : Nat} (c : BitVec w) : popcount c = (setIndices c).length := popcountBelow_eq_length c w

theorem checkW_eq_foldl {w : Nat} (c : BitVec w) :
    checkW c = (setIndices c).foldl (fun acc i => acc ^^^ BitVec.ofNat 6 i) 0#6 := syndromeBelow_eq_foldl c w

theorem par_eq_true_iff {w : Nat} (c : BitVec w) : par c = true ↔ popcount c % 2 = 1 := beq_iff_eq

theorem nodup_setIndices {w : Nat} (c : BitVec w) : (setIndices c).Nodup := List.nodup_range.filter _

theorem lt_of_mem_setIndices {w : Nat} {c : BitVec w} {i : Nat} (h : i ∈ setIndices c) : i < w :=
  List.mem_range.mp (List.mem_filter.mp h).1

theorem eq_zero_of_setIndices_eq_nil {w : Nat} {c : BitVec w} (h : setIndices c = []) : c = 0 := by
  apply BitVec.eq_of_getLsbD_eq
  intro i hi
  have hclear := List.filter_eq_nil_iff.mp h i (List.mem_range.mpr hi)
  rw [Bool.eq_false_of_not_eq_true hclear]
  exact BitVec.getLsbD_zero.symm

/-- Settles O19: popcount counts the set indices. -/
theorem parityCountsSetBits : Obligations.ParityCountsSetBits := by
  unfold Obligations.ParityCountsSetBits
  intro v c
  rw [par_eq_true_iff, popcount_eq_length, setIndices]

/-! ### Encoded words (R131) -/

theorem getLsbD_encodeW_dataPos (v : Variant) (m : BitVec v.D) {i : Nat} (hi : i < v.D) :
    (encodeW v m).getLsbD (dataPos i) = m.getLsbD i := by
  rw [← getLsbD_compressW v _ hi, compressW_encodeW]

/-- Step 3 of R130 flips bit 2^j once, in round j. -/
theorem getLsbD_flipGroups_two_pow {w : Nat} (s : BitVec 6) (c : BitVec w) (n : Nat) {j : Nat} (hj : 2 ^ j < w) :
    (flipGroups s c n).getLsbD (2 ^ j) = (c.getLsbD (2 ^ j) ^^ (decide (j < n) && s.getLsbD j)) := by
  induction n with
  | zero => simp [flipGroups]
  | succ n ih =>
    have hround : (flipGroups s c (n + 1)).getLsbD (2 ^ j) =
        ((flipGroups s c n).getLsbD (2 ^ j) ^^ (decide (n = j) && s.getLsbD n)) := by
      rw [flipGroups_succ]
      cases hs : s.getLsbD n <;> simp [hj, eq_comm]
    rw [hround, ih]
    by_cases hnj : n = j
    · simp [hnj]
    · have hlt : j < n + 1 ↔ j < n := by omega
      simp [hnj, hlt]

/-- Step 4 of R130 writes bit 0 only. -/
theorem getLsbD_closeParity {w : Nat} (c : BitVec w) {k : Nat} (hk : k ≠ 0) :
    (closeParity c).getLsbD k = c.getLsbD k := by
  unfold closeParity
  split <;> simp [hk]

/-- Group-parity bit 2^k is bit k of the expanded message's syndrome. -/
theorem getLsbD_encodeW_two_pow (v : Variant) (m : BitVec v.D) {k : Nat} (hk : k < v.groups) :
    (encodeW v m).getLsbD (2 ^ k) = (checkW (expandW v m)).getLsbD k := by
  rw [encodeW, getLsbD_closeParity _ (Nat.two_pow_pos k).ne', getLsbD_flipGroups_two_pow _ _ _ (two_pow_lt_W hk),
    getLsbD_expandW_of_parity v m (getLsbD_pmask_two_pow hk)]
  simp [hk]

/-- Settles O21: the data bits of a codeword are its message's, and the parity bits close syndrome and parity. -/
theorem encodedWordsAreValid : Obligations.EncodedWordsAreValid := by
  unfold Obligations.EncodedWordsAreValid
  refine fun v m => ⟨checkW_encodeW v m, par_encodeW v m, ?_, compressW_encodeW v m,
    fun k hk => getLsbD_encodeW_two_pow v m hk⟩
  rw [← expandW_compressW, compressW_encodeW]

/-! ### Codewords are determined by their message (R131) -/

theorem xor_twoPow_xor_twoPow {w : Nat} (c : BitVec w) (b : Nat) :
    c ^^^ BitVec.twoPow w b ^^^ BitVec.twoPow w b = c := by
  rw [BitVec.xor_assoc, BitVec.xor_self, BitVec.xor_zero]

/-- The indices of two bits of a word differ also as 6-bit values (R84). -/
theorem ofNat_xor_ofNat_ne_zero {v : Variant} {b c : Nat} (hb : b < v.W) (hc : c < v.W) (hne : b ≠ c) :
    BitVec.ofNat 6 b ^^^ BitVec.ofNat 6 c ≠ 0 := by
  have hW : v.W ≤ 2 ^ 6 := by cases v <;> decide
  intro h
  have hval := congrArg BitVec.toNat (BitVec.xor_eq_zero_iff.mp h)
  rw [BitVec.toNat_ofNat, BitVec.toNat_ofNat, Nat.mod_eq_of_lt (hb.trans_le hW),
    Nat.mod_eq_of_lt (hc.trans_le hW)] at hval
  exact hne hval

/-- A word other than 0 whose syndrome and parity are 0 has at least four set bits: their number is even, and two
indices have an XOR other than 0. -/
theorem four_le_popcount {v : Variant} {c : BitVec v.W} (hne : c ≠ 0) (hs : checkW c = 0) (hp : par c = false) :
    4 ≤ popcount c := by
  have heven : popcount c % 2 ≠ 1 := by
    intro h
    rw [(par_eq_true_iff c).mpr h] at hp
    cases hp
  have hzero : popcount c ≠ 0 := by
    rw [popcount_eq_length]
    exact fun h => hne (eq_zero_of_setIndices_eq_nil (List.length_eq_zero_iff.mp h))
  have htwo : popcount c ≠ 2 := by
    rw [popcount_eq_length]
    intro h
    obtain ⟨i, j, hij⟩ := List.length_eq_two.mp h
    have hdistinct : i ≠ j := by simpa [hij] using nodup_setIndices c
    have hi : i < v.W := lt_of_mem_setIndices (c := c) (by simp [hij])
    have hj : j < v.W := lt_of_mem_setIndices (c := c) (by simp [hij])
    rw [checkW_eq_foldl, hij] at hs
    refine ofNat_xor_ofNat_ne_zero hi hj hdistinct ?_
    simpa using hs
  omega

theorem expandW_xor (v : Variant) (a b : BitVec v.D) : expandW v (a ^^^ b) = expandW v a ^^^ expandW v b := by
  apply eq_of_parity_of_dataPos
  · intro k hk
    simp [getLsbD_expandW_of_parity v _ hk]
  · intro i hi
    simp [getLsbD_expandW_dataPos v _ hi]

/-- Words of one parity that agree above bit 0 are equal. -/
theorem eq_of_par_eq {w : Nat} {a b : BitVec w} (hp : par a = par b) (h : ∀ k, k ≠ 0 → a.getLsbD k = b.getLsbD k) :
    a = b := by
  apply BitVec.eq_of_getLsbD_eq
  intro k hk
  obtain hk0 | rfl := ne_or_eq k 0
  · exact h k hk0
  by_contra hne
  have hflip : a = b ^^^ BitVec.twoPow w 0 := by
    apply BitVec.eq_of_getLsbD_eq
    intro j hj
    obtain hj0 | rfl := ne_or_eq j 0
    · simp [h j hj0, hj0.symm]
    · simpa [hk, Bool.eq_not] using hne
  rw [hflip, par_xor, par_twoPow hk] at hp
  simp at hp

theorem encodeW_xor (v : Variant) (a b : BitVec v.D) : encodeW v (a ^^^ b) = encodeW v a ^^^ encodeW v b := by
  apply eq_of_par_eq
  · simp [par_xor, par_encodeW]
  intro k hk0
  by_cases hW : k < v.W
  · cases hk : v.pmask.getLsbD k with
    | true =>
      obtain rfl | ⟨j, hj, rfl⟩ := (getLsbD_pmask v hW).mp hk
      · exact absurd rfl hk0
      · simp [getLsbD_encodeW_two_pow v _ hj, expandW_xor, checkW_xor]
    | false =>
      obtain ⟨i, rfl⟩ := (getLsbD_pmask_eq_false_iff v hW).mp hk
      simp [getLsbD_encodeW_dataPos v _ ((dataPos_lt_W_iff v i).mp hW)]
  · rw [BitVec.getLsbD_of_ge _ _ (Nat.le_of_not_lt hW), BitVec.getLsbD_of_ge _ _ (Nat.le_of_not_lt hW)]

theorem encodeW_injective (v : Variant) : Function.Injective (encodeW v) :=
  Function.LeftInverse.injective (g := compressW v) (compressW_encodeW v)

theorem encodeW_zero (v : Variant) : encodeW v 0 = 0 := by
  have h := encodeW_xor v 0 0
  rwa [BitVec.xor_self, BitVec.xor_self] at h

/-- Settles O22: data bits, group-parity bits and parity are linear, and compress undoes encode. -/
theorem encodeIsLinearAndInjective : Obligations.EncodeIsLinearAndInjective := by
  unfold Obligations.EncodeIsLinearAndInjective
  exact fun v => ⟨encodeW_xor v, encodeW_zero v, fun _ _ h => encodeW_injective v h⟩

/-- Settles O23: the XOR of two codewords is a word other than 0 whose syndrome and parity are 0. -/
theorem codeDistanceIsFour : Obligations.CodeDistanceIsFour := by
  unfold Obligations.CodeDistanceIsFour
  intro v a b hab
  have hne : encodeW v a ^^^ encodeW v b ≠ 0 := fun h => hab (encodeW_injective v (BitVec.xor_eq_zero_iff.mp h))
  refine four_le_popcount hne ?_ ?_
  · rw [checkW_xor, checkW_encodeW, checkW_encodeW]
    exact BitVec.xor_self
  · rw [par_xor, par_encodeW, par_encodeW, Bool.xor_self]

/-! ### Codewords with flipped bits (R151) -/

/-- Settles O25: a codeword has syndrome 0 and parity 0, and its data bits are the message. -/
theorem decodeOfEncodeIsTheMessage : Obligations.DecodeOfEncodeIsTheMessage := by
  unfold Obligations.DecodeOfEncodeIsTheMessage
  exact decodeW_encodeW

/-- One flipped bit shows its index as the syndrome. -/
theorem checkW_encodeW_xor_twoPow {v : Variant} (m : BitVec v.D) {b : Nat} (hb : b < v.W) :
    checkW (encodeW v m ^^^ BitVec.twoPow v.W b) = BitVec.ofNat 6 b := by
  rw [checkW_xor_twoPow _ hb, checkW_encodeW]
  exact BitVec.zero_xor

theorem par_encodeW_xor_twoPow {v : Variant} (m : BitVec v.D) {b : Nat} (hb : b < v.W) :
    par (encodeW v m ^^^ BitVec.twoPow v.W b) = true := by
  rw [par_xor, par_encodeW, par_twoPow hb]
  rfl

/-- Settles O26: a flipped bit 0 holds no message bit, and any other is the bit that its syndrome has flipped back. -/
theorem singleErrorsAreCorrected : Obligations.SingleErrorsAreCorrected := by
  unfold Obligations.SingleErrorsAreCorrected
  intro v m b hb
  have hs := checkW_encodeW_xor_twoPow m hb
  have hp := par_encodeW_xor_twoPow m hb
  have hindex : (BitVec.ofNat 6 b).toNat = b := Nat.mod_eq_of_lt (hb.trans_le (by cases v <;> decide))
  obtain rfl | hb0 := eq_or_ne b 0
  · rw [decodeW_parityOnly hs hp, compressW_xor_twoPow_of_parity _ (getLsbD_pmask_zero v), compressW_encodeW]
    rfl
  · have hs0 : checkW (encodeW v m ^^^ BitVec.twoPow v.W b) ≠ 0 := by
      rw [hs, BitVec.toNat_ne, hindex]
      exact hb0
    rw [decodeW_corrected hs0 hp, hs, hindex, xor_twoPow_xor_twoPow, compressW_encodeW, if_neg hb0]

/-- Settles O27: two flipped bits leave the parity even, and their indices have an XOR other than 0. -/
theorem doubleErrorsAreDetected : Obligations.DoubleErrorsAreDetected := by
  unfold Obligations.DoubleErrorsAreDetected
  intro v m b c hb hc hne
  have hsum := ofNat_xor_ofNat_ne_zero hb hc hne
  have hs : checkW (encodeW v m ^^^ BitVec.twoPow v.W b ^^^ BitVec.twoPow v.W c) =
      BitVec.ofNat 6 b ^^^ BitVec.ofNat 6 c := by
    rw [checkW_xor_twoPow _ hc, checkW_encodeW_xor_twoPow m hb]
  have hp : par (encodeW v m ^^^ BitVec.twoPow v.W b ^^^ BitVec.twoPow v.W c) = false := by
    rw [par_xor, par_encodeW_xor_twoPow m hb, par_twoPow hc]
    rfl
  refine ⟨?_, hsum⟩
  rw [decodeW_uncorrectable (hs ▸ hsum) hp, hs]

/-- Settles O46: each window comes back from its codeword. -/
theorem frameRoundTrip : Obligations.FrameRoundTrip := by
  unfold Obligations.FrameRoundTrip
  exact fun v bs h => decFrame_encFrame h

end Sys2Proof.Machine
end

section
/-!
PROOFS. The STATUS word (R24, R25): each field at its bits.
-/

namespace Sys2Proof.Machine

/-- BUSY is set exactly while PHASE is not IDLE. -/
theorem busy_eq_true_iff {s : State} : s.busy = true ↔ s.phase ≠ .idle := by
  rw [ne_eq, ← busy_eq_false, Bool.not_eq_false]

theorem statusWord_busy (s : State) : s.statusWord.getLsbD 0 = s.busy := by
  simp only [State.statusWord, BitVec.getLsbD_append]
  simp

theorem statusWord_parity (s : State) : s.statusWord.getLsbD 24 = s.parity := by
  simp only [State.statusWord, BitVec.getLsbD_append]
  simp

/-- The pieces below a field are dropped one by one, until the field is the lowest. -/
theorem statusWord_fields (s : State) :
    s.statusWord.extractLsb' 4 4 = s.err.code ∧ s.statusWord.extractLsb' 8 2 = s.dclass.code ∧
      s.statusWord.extractLsb' 16 6 = s.syndrome := by
  refine ⟨?_, ?_, ?_⟩ <;>
  · rw [State.statusWord]
    repeat rw [BitVec.extractLsb'_append_eq_of_le (by decide)]
    exact BitVec.extractLsb'_append_eq_right

/-- Settles O11: the word is its fields in order, and the codes are a table. -/
theorem statusWordLayout : Obligations.StatusWordLayout := by
  unfold Obligations.StatusWordLayout
  refine ⟨fun s => ?_, rfl, rfl, rfl, rfl, rfl, rfl, rfl⟩
  obtain ⟨herr, hdclass, hsyndrome⟩ := statusWord_fields s
  exact ⟨statusWord_busy s ▸ busy_eq_true_iff, herr, hdclass, hsyndrome, statusWord_parity s⟩

end Sys2Proof.Machine
end

section
/-!
PROOFS. Command words (R80, R87, R88) and the word commands (R104 to R154, R201): all that any of them can do, and
so what each leaves unchanged.
-/

namespace Sys2Proof.Machine

/-! ### Command words -/

/-- Settles O2: each word is the word of its command. -/
theorem sampleCommandWordsDecode : Obligations.SampleCommandWordsDecode := by
  unfold Obligations.SampleCommandWordsDecode
  simp only [decode_eq_ok_iff]
  decide

/-- Settles O3: the fields of the decoder are the bits of R80. -/
theorem illegalWordsAreRejected : Obligations.IllegalWordsAreRejected := by
  unfold Obligations.IllegalWordsAreRejected
  exact exists_decode_eq_error_iff

/-! ### All a word command can do -/

/-- What word command `i` can make of a state. A written RESULT of the 32-bit variant is below 2^32 (R23). -/
inductive WordEffect (i : Instr) (s : State) : State → Prop
  | nop (hi : i = .nop) : WordEffect i s (s.setErr .noError)
  | raised (e : ErrCode) : WordEffect i s (s.raise e)
  | result (r : Word) (hi : i ≠ .nop) (hr : i.var = 0 → r.toNat < 2 ^ 32) : WordEffect i s (s.finish r)
  | checked (syn : BitVec 6) (p : Bool) (r : Word) (hi : i ∈ [.check32, .check64]) (hr : i.var = 0 → r.toNat < 2 ^ 32) :
      WordEffect i s ((s.setCheck syn p).finish r)
  | decoded (syn : BitVec 6) (p : Bool) (d : DClass) (r : Word) (hi : i ∈ [.decode32, .decode64])
      (hr : i.var = 0 → r.toNat < 2 ^ 32) : WordEffect i s ((s.setDecode syn p d).finish r)
  | uncorrectable (syn : BitVec 6) (p : Bool) (hi : i ∈ [.decode32, .decode64]) :
      WordEffect i s ((s.setDecode syn p .uncorrectable).raise .uncorrectable)

theorem D_le_W (v : Variant) : v.D ≤ v.W := by cases v <;> decide

theorem six_le_W (v : Variant) : 6 ≤ v.W := by cases v <;> decide

section
variable {i : Instr} {v : Variant} (hv : i.var = 0 → v = .h32)
include hv

/-- The results of a command have at most W bits. -/
theorem toNat_setWidth_lt_of_var {n : Nat} (hn : n ≤ v.W) (x : BitVec n) (hi : i.var = 0) :
    (x.setWidth 64 : Word).toNat < 2 ^ 32 := by
  obtain rfl := hv hi
  exact (toNat_setWidth_lt x 64).trans_le (Nat.pow_le_pow_right (by decide) hn)

theorem expandCommand_effect (hi : i ≠ .nop) (s : State) : WordEffect i s (expandCommand v s) := by
  obtain ⟨-, he⟩ | ⟨-, he⟩ := expandCommand_cases v s <;> rw [he]
  · exact .raised _
  · exact .result _ hi (toNat_setWidth_lt_of_var hv le_rfl _)

theorem compressCommand_effect (hi : i ≠ .nop) (s : State) : WordEffect i s (compressCommand v s) := by
  obtain ⟨-, he⟩ | ⟨-, he⟩ := compressCommand_cases v s <;> rw [he]
  · exact .raised _
  · exact .result _ hi (toNat_setWidth_lt_of_var hv (D_le_W v) _)

theorem encodeCommand_effect (hi : i ≠ .nop) (s : State) : WordEffect i s (encodeCommand v s) := by
  obtain ⟨-, he⟩ | ⟨-, he⟩ := encodeCommand_cases v s <;> rw [he]
  · exact .raised _
  · exact .result _ hi (toNat_setWidth_lt_of_var hv le_rfl _)

theorem checkCommand_effect (hi : i ∈ [.check32, .check64]) (s : State) : WordEffect i s (checkCommand v s) := by
  obtain ⟨-, he⟩ | ⟨_, -, -, he⟩ := checkCommand_cases v s <;> rw [he]
  · exact .raised _
  · exact .checked _ _ _ hi (toNat_setWidth_lt_of_var hv (six_le_W v) _)

theorem decodeCommand_effect (hi : i ∈ [.decode32, .decode64]) (s : State) : WordEffect i s (decodeCommand v s) := by
  obtain ⟨-, he⟩ | ⟨_, -, rfl, hnone, he⟩ | ⟨_, _, -, -, -, he⟩ := decodeCommand_cases v s <;> rw [he]
  · exact .raised _
  · obtain ⟨hs, hp⟩ := message_decodeW_eq_none_iff.mp hnone
    rw [decodeW_uncorrectable hs hp]
    exact .uncorrectable _ _ hi
  · exact .decoded _ _ _ _ hi (toNat_setWidth_lt_of_var hv (D_le_W v) _)

end

theorem exec_wordEffect {i : Instr} (hi : i.isWordCommand = true) (s : State) :
    ∃ t, exec i s = .next t ∧ WordEffect i s t := by
  cases i with
  | nop => exact ⟨_, rfl, .nop rfl⟩
  | expand32 => exact ⟨_, rfl, expandCommand_effect (v := .h32) (fun _ => rfl) (by decide) s⟩
  | expand64 => exact ⟨_, rfl, expandCommand_effect (v := .h64) (by decide) (by decide) s⟩
  | compress32 => exact ⟨_, rfl, compressCommand_effect (v := .h32) (fun _ => rfl) (by decide) s⟩
  | compress64 => exact ⟨_, rfl, compressCommand_effect (v := .h64) (by decide) (by decide) s⟩
  | check32 => exact ⟨_, rfl, checkCommand_effect (v := .h32) (fun _ => rfl) (by decide) s⟩
  | check64 => exact ⟨_, rfl, checkCommand_effect (v := .h64) (by decide) (by decide) s⟩
  | encode32 => exact ⟨_, rfl, encodeCommand_effect (v := .h32) (fun _ => rfl) (by decide) s⟩
  | encode64 => exact ⟨_, rfl, encodeCommand_effect (v := .h64) (by decide) (by decide) s⟩
  | decode32 => exact ⟨_, rfl, decodeCommand_effect (v := .h32) (fun _ => rfl) (by decide) s⟩
  | decode64 => exact ⟨_, rfl, decodeCommand_effect (v := .h64) (by decide) (by decide) s⟩
  | encstream32 | encstream64 | decstream32 | decstream64 => cases hi

/-- All that running a word command can do. -/
theorem wordEffect_of_exec {i : Instr} {s t : State} (hi : i.isWordCommand = true) (h : exec i s = .next t) :
    WordEffect i s t := by
  obtain ⟨t', ht, he⟩ := exec_wordEffect hi s
  cases ht.symm.trans h
  exact he

/-! ### What a word command leaves unchanged (R24, R217) -/

section
variable {i : Instr} {s t : State}

theorem WordEffect.frame (h : WordEffect i s t) :
    t =
      { s with
        result := t.result, err := t.err, syndrome := t.syndrome, parity := t.parity, dclass := t.dclass } := by
  cases h <;> rfl

theorem WordEffect.phase_eq (h : WordEffect i s t) : t.phase = s.phase := (congrArg State.phase h.frame :)

theorem WordEffect.operand_eq (h : WordEffect i s t) : t.operand = s.operand := (congrArg State.operand h.frame :)

theorem WordEffect.cmdLast_eq (h : WordEffect i s t) : t.cmdLast = s.cmdLast := (congrArg State.cmdLast h.frame :)

/-- RESULT is written by a command other than NOP that succeeds (R23). -/
theorem WordEffect.of_result_ne (h : WordEffect i s t) (hne : t.result ≠ s.result) :
    i ≠ .nop ∧ t.err = .noError ∧ (i.var = 0 → t.result.toNat < 2 ^ 32) := by
  cases h with
  | nop | raised | uncorrectable => exact absurd rfl hne
  | result r hi hr => exact ⟨hi, rfl, hr⟩
  | checked _ _ r hi hr | decoded _ _ _ r hi hr => exact ⟨by rintro rfl; simp at hi, rfl, hr⟩

end

/-- Settles O38: each effect of a word command writes only the fields named. -/
theorem wordCommandFrame : Obligations.WordCommandFrame := by
  unfold Obligations.WordCommandFrame
  intro i s hi
  obtain ⟨t, ht, he⟩ := exec_wordEffect hi s
  refine ⟨t, ht, he.frame, ?check, ?dclass, ?result⟩
  case check =>
    intro hnot
    cases he with
    | nop | raised | result => exact ⟨rfl, rfl⟩
    | checked _ _ _ hcheck => exact absurd (List.mem_append_left [Instr.decode32, .decode64] hcheck) hnot
    | decoded _ _ _ _ hdec | uncorrectable _ _ hdec =>
      exact absurd (List.mem_append_right [Instr.check32, .check64] hdec) hnot
  case dclass =>
    intro hnot
    cases he with
    | nop | raised | result | checked => rfl
    | decoded _ _ _ _ hdec | uncorrectable _ _ hdec => exact absurd hdec hnot
  case result =>
    intro hnop
    by_contra hne
    obtain ⟨hnot, -, -⟩ := he.of_result_ne hne
    exact hnot hnop

/-- Settles O39: of the effects, only a raise leaves an error, alone or after DECODE's writes. -/
theorem wordErrorsArePrecise : Obligations.WordErrorsArePrecise := by
  unfold Obligations.WordErrorsArePrecise
  intro i s t hi h herr
  cases wordEffect_of_exec hi h with
  | nop | result | checked | decoded => exact absurd rfl herr
  | raised e => exact .inl rfl
  | uncorrectable syn p hdec => exact .inr ⟨by simpa using hdec, rfl, rfl, rfl⟩

/-- Settles O6: a busy engine drops the word, and no effect of a word command is on PHASE. -/
theorem commandWhileBusyIsDropped : Obligations.CommandWhileBusyIsDropped := by
  unfold Obligations.CommandWhileBusyIsDropped
  refine ⟨fun s es w h hp => step_of_command_busy h hp, fun s t i hi hp h => ?_⟩
  exact (wordEffect_of_exec hi h).phase_eq.trans hp

end Sys2Proof.Machine
end

section
/-!
PROOFS. stream_frame_packer: the accept step of a stream command (R174), the cycles (R175, R176), and what a cycle
leaves unchanged (R50, R57).
-/

namespace Sys2Proof.Machine

/-! ### Stream accept (R174) -/

theorem acceptsStream_of_exec {i : Instr} {start : InputChannel → Phase}
    (h : ∀ s, exec i s = .next (acceptStream start s)) : AcceptsStream i start := by
  intro s
  constructor
  · intro hok
    rw [h, acceptStream_of_ok start hok]
    rfl
  · intro k hfail
    rw [h, acceptStream_of_fail start hfail]
    rfl

/-- Settles O40: the four commands are one accept step. -/
theorem streamCommandsAreAccepted : Obligations.StreamCommandsAreAccepted := by
  unfold Obligations.StreamCommandsAreAccepted
  exact ⟨acceptsStream_of_exec fun _ => rfl, acceptsStream_of_exec fun _ => rfl,
    acceptsStream_of_exec fun _ => rfl, acceptsStream_of_exec fun _ => rfl⟩

/-- All a command that is no word command can do. -/
theorem exec_stream {i : Instr} (hi : i.isWordCommand = false) (s : State) :
    ∃ (v : Variant) (start : InputChannel → Phase), (start = .encStream v ∨ start = .decStream v) ∧
      exec i s = .next (acceptStream start s) := by
  cases i with
  | encstream32 => exact ⟨.h32, _, .inl rfl, rfl⟩
  | encstream64 => exact ⟨.h64, _, .inl rfl, rfl⟩
  | decstream32 => exact ⟨.h32, _, .inr rfl, rfl⟩
  | decstream64 => exact ⟨.h64, _, .inr rfl, rfl⟩
  | nop | expand32 | expand64 | compress32 | compress64 | check32 | check64 | encode32 | encode64 | decode32 |
    decode64 => cases hi

section
variable (start : InputChannel → Phase) (s : State)

@[simp] theorem acceptStream_cmdLast : (acceptStream start s).cmdLast = s.cmdLast := by
  unfold acceptStream
  split <;> rfl

@[simp] theorem acceptStream_operand : (acceptStream start s).operand = s.operand := by
  unfold acceptStream
  split <;> rfl

@[simp] theorem acceptStream_result : (acceptStream start s).result = s.result := by
  unfold acceptStream
  split <;> rfl

end

/-! ### The write of a cycle, after a read of n bytes (R57) -/

@[simp] theorem lastOutput_takeDraw (s : State) : s.takeDraw.lastOutput = s.lastOutput := by
  simp only [State.lastOutput, State.takeDraw_outputs]

@[simp] theorem lastOutput_addSin (s : State) (n : Nat) : (s.addSin n).lastOutput = s.lastOutput := by
  simp only [State.lastOutput, State.addSin_outputs]

/-- A read and a write leave the output as the write appended it. -/
theorem appendOutput_after_read (s : State) (n : Nat) (bs : List Byte) :
    (s.takeDraw.addSin n).takeDraw.appendOutput bs =
      { s with
        draws := s.draws.tail.tail, drawCount := s.drawCount + 2, sinBytes := s.sinBytes + BitVec.ofNat 64 n,
        outputs := (s.lastOutput ++ bs) :: s.outputs.tail } := by
  rw [State.appendOutput, lastOutput_takeDraw, lastOutput_addSin, lastOutput_takeDraw]
  rfl

section
variable {s : State} {bs : List Byte} (n : Nat)

theorem writeFrame_after_read_of_ok {after : State → State} {p : Phase}
    (hafter : ∀ t : State, after t = { t with phase := p }) (hd : s.takeDraw.nextDraw = .ok) :
    writeFrame bs after (s.takeDraw.addSin n) =
      { s with
        draws := s.draws.tail.tail, drawCount := s.drawCount + 2, sinBytes := s.sinBytes + BitVec.ofNat 64 n,
        soutBytes := s.soutBytes + BitVec.ofNat 64 bs.length, sframes := s.sframes + 1,
        outputs := (s.lastOutput ++ bs) :: s.outputs.tail, phase := p } := by
  rw [writeFrame_of_ok (s := s.takeDraw.addSin n) bs after hd, appendOutput_after_read, hafter]
  rfl

theorem writeFrame_after_read_of_fail (after : State → State) {k : Nat} (hd : s.takeDraw.nextDraw = .fail k) :
    writeFrame bs after (s.takeDraw.addSin n) =
      { s with
        draws := s.draws.tail.tail, drawCount := s.drawCount + 2, sinBytes := s.sinBytes + BitVec.ofNat 64 n,
        soutBytes := s.soutBytes + BitVec.ofNat 64 (k % bs.length),
        outputs := (s.lastOutput ++ bs.take (k % bs.length)) :: s.outputs.tail,
        err := .ioFailure, phase := .idle } := by
  rw [writeFrame_of_fail (s := s.takeDraw.addSin n) bs after hd, appendOutput_after_read]
  rfl

end

/-! ### The encode cycle (R175) -/

section
variable {v : Variant} {ch : InputChannel} {s : State}

theorem encCycle_of_fail {k : Nat} (hd : s.nextDraw = .fail k) :
    encCycle v ch s = s.takeDraw.raiseStream .ioFailure := by
  simp [encCycle, hd]

theorem encCycle_of_read_nil (hd : s.nextDraw = .ok) (hr : (ch.src.drop ch.pos).take v.FIN = []) :
    encCycle v ch s = s.takeDraw.endStream := by
  simp [encCycle, hd, chanRead_ok, hr]

theorem encCycle_of_read {r : List Byte} (hd : s.nextDraw = .ok) (hr : r = (ch.src.drop ch.pos).take v.FIN)
    (hne : r ≠ []) :
    encCycle v ch s =
      writeFrame (encFrame v (padFrame v r)) (afterEncode v r.length ⟨ch.src, ch.pos + r.length⟩)
        (s.takeDraw.addSin r.length) := by
  have hlen : r.length ≠ 0 := mt List.length_eq_zero_iff.mp hne
  simp only [encCycle, hd, chanRead_ok, ← hr, if_neg hlen]

/-- The end of an encode cycle writes PHASE only; a read that is not short returned FIN bytes. -/
theorem afterEncode_of_le {n : Nat} (hn : n ≤ v.FIN) (t : State) :
    afterEncode v n ⟨ch.src, ch.pos + n⟩ t =
      { t with phase := if n < v.FIN then .idle else .encStream v ⟨ch.src, ch.pos + v.FIN⟩ } := by
  rw [afterEncode_eq]
  split
  next => rfl
  next hfull => rw [Nat.le_antisymm hn (Nat.le_of_not_lt hfull)]

end

/-- Settles O41: the outcomes of the read and of the write tell the clauses apart. -/
theorem encodeCycleEffect : Obligations.EncodeCycleEffect := by
  unfold Obligations.EncodeCycleEffect
  intro v ch s hp r hr
  rw [cycle_of_encStream hp]
  have hlen := length_encFrame v (padFrame v r)
  refine ⟨fun k hd => ?readFails, fun hd hnil => ?readNil, fun hd hne hw => ?written, fun k hd hne hw => ?writeFails⟩
  case readFails => exact encCycle_of_fail hd
  case readNil => exact encCycle_of_read_nil hd (hr ▸ hnil)
  case written =>
    have hle : r.length ≤ v.FIN := hr ▸ List.length_take_le _ _
    rw [encCycle_of_read hd hr hne, writeFrame_after_read_of_ok _ (afterEncode_of_le hle) hw, hlen, padFrame]
  case writeFails => rw [encCycle_of_read hd hr hne, writeFrame_after_read_of_fail _ _ hw, hlen, padFrame]

/-! ### The decode cycle (R176) -/

section
variable {v : Variant} {ch : InputChannel} {s : State}

theorem decCycle_of_fail {k : Nat} (hd : s.nextDraw = .fail k) :
    decCycle v ch s = s.takeDraw.raiseStream .ioFailure := by
  simp [decCycle, hd]

theorem decCycle_of_read_nil (hd : s.nextDraw = .ok) (hr : (ch.src.drop ch.pos).take v.FOUT = []) :
    decCycle v ch s = s.takeDraw.endStream := by
  simp [decCycle, hd, chanRead_ok, hr]

section
variable {r : List Byte} (hd : s.nextDraw = .ok) (hr : r = (ch.src.drop ch.pos).take v.FOUT)
include hd hr

theorem decCycle_of_short_read (hne : r ≠ []) (hlt : r.length < v.FOUT) :
    decCycle v ch s = (s.takeDraw.addSin r.length).raiseStream .malformedStream := by
  have hlen : r.length ≠ 0 := mt List.length_eq_zero_iff.mp hne
  simp only [decCycle, hd, chanRead_ok, ← hr, if_neg hlen, if_pos hlt]

variable (hlen : r.length = v.FOUT)
include hlen

theorem decCycle_of_uncorrectable {k : Nat} (hdec : decFrame v r = .uncorrectable k) :
    decCycle v ch s = (s.takeDraw.addSin v.FOUT).raiseStream .uncorrectable := by
  simp only [decCycle, hd, chanRead_ok, ← hr, hlen, if_neg (FOUT_pos v).ne', if_neg (lt_irrefl v.FOUT), hdec]

theorem decCycle_of_decoded {bs : List Byte} (hdec : decFrame v r = .decoded bs) :
    decCycle v ch s =
      writeFrame (trim bs) (fun t => { t with phase := .decStream v ⟨ch.src, ch.pos + v.FOUT⟩ })
        (s.takeDraw.addSin v.FOUT) := by
  simp only [decCycle, hd, chanRead_ok, ← hr, hlen, if_neg (FOUT_pos v).ne', if_neg (lt_irrefl v.FOUT), hdec]

end

/-- A decoded frame is not empty, and trim keeps its first byte. -/
theorem trim_ne_nil_of_decFrame {r bs : List Byte} (hdec : decFrame v r = .decoded bs) : trim bs ≠ [] := by
  obtain ⟨-, hbytes⟩ := decodedFrameWindows v r
  obtain ⟨hlen, -⟩ := hbytes bs hdec
  exact trim_ne_nil (List.ne_nil_of_length_pos (hlen ▸ FIN_pos v))

end

/-- Settles O42: the outcomes of the read, of decFrame and of the write tell the clauses apart. -/
theorem decodeCycleEffect : Obligations.DecodeCycleEffect := by
  unfold Obligations.DecodeCycleEffect
  intro v ch s hp r hr
  rw [cycle_of_decStream hp]
  refine ⟨fun k hd => ?readFails, fun hd hnil => ?readNil, fun hd hne hlt => ?short,
    fun k hd hlen hdec => ?uncorrectable, fun bs hd hlen hdec hw => ?written, fun bs k hd hlen hdec hw => ?writeFails⟩
  case readFails => exact decCycle_of_fail hd
  case readNil => exact decCycle_of_read_nil hd (hr ▸ hnil)
  case short => exact decCycle_of_short_read hd hr hne hlt
  case uncorrectable => exact decCycle_of_uncorrectable hd hr hlen hdec
  case written => rw [decCycle_of_decoded hd hr hlen hdec, writeFrame_after_read_of_ok _ (fun _ => rfl) hw]
  case writeFails =>
    refine ⟨failedLength_lt k (trim_ne_nil_of_decFrame hdec), ?_⟩
    rw [decCycle_of_decoded hd hr hlen hdec, writeFrame_after_read_of_fail _ _ hw]

/-! ### What a cycle leaves unchanged -/

/-- `t` differs from `s` in counters, ERR, PHASE and outcomes at most, and in bytes appended to the newest output. -/
structure CycleChange (s t : State) : Prop where
  frame : t =
    { s with
      sinBytes := t.sinBytes, soutBytes := t.soutBytes, sframes := t.sframes, err := t.err, phase := t.phase,
      outputs := t.outputs, draws := t.draws, drawCount := t.drawCount }
  outputs : t.outputs = s.outputs ∨ ∃ bs, t.outputs = (s.lastOutput ++ bs) :: s.outputs.tail

theorem writeFrame_change {after : State → State} (hafter : ∀ t : State, ∃ p, after t = { t with phase := p })
    (bs : List Byte) (n : Nat) (s : State) : CycleChange s (writeFrame bs after (s.takeDraw.addSin n)) := by
  obtain ⟨k, -, he⟩ | ⟨-, he⟩ := writeFrame_cases bs after (s.takeDraw.addSin n) <;>
    rw [he, appendOutput_after_read]
  · exact ⟨rfl, .inr ⟨_, rfl⟩⟩
  · obtain ⟨p, hp⟩ := hafter _
    rw [hp]
    exact ⟨rfl, .inr ⟨_, rfl⟩⟩

theorem encCycle_change (v : Variant) (ch : InputChannel) (s : State) : CycleChange s (encCycle v ch s) := by
  obtain ⟨_, -, he⟩ | ⟨-, -, he⟩ | ⟨r, -, -, -, he⟩ := encCycle_cases v ch s <;> rw [he]
  · exact ⟨rfl, .inl rfl⟩
  · exact ⟨rfl, .inl rfl⟩
  · refine writeFrame_change (fun t => ?_) _ _ s
    exact ⟨_, afterEncode_eq v _ _ t⟩

theorem decCycle_change (v : Variant) (ch : InputChannel) (s : State) : CycleChange s (decCycle v ch s) := by
  obtain ⟨_, -, he⟩ | ⟨-, -, he⟩ | ⟨_, -, -, -, -, he⟩ | ⟨_, _, -, -, -, -, -, he⟩ | ⟨_, _, -, -, -, -, -, he⟩ :=
    decCycle_cases v ch s <;> rw [he]
  case inr.inr.inr.inr => exact writeFrame_change (fun _ => ⟨_, rfl⟩) _ _ s
  all_goals exact ⟨rfl, .inl rfl⟩

theorem cycle_change (s : State) : CycleChange s s.cycle := by
  cases hp : s.phase with
  | idle => rw [cycle_of_idle hp]; exact ⟨rfl, .inl rfl⟩
  | encStream v ch => rw [cycle_of_encStream hp]; exact encCycle_change v ch s
  | decStream v ch => rw [cycle_of_decStream hp]; exact decCycle_change v ch s

@[simp] theorem State.cycle_cmdLast (s : State) : s.cycle.cmdLast = s.cmdLast :=
  (congrArg State.cmdLast (cycle_change s).frame :)

@[simp] theorem State.cycle_operand (s : State) : s.cycle.operand = s.operand :=
  (congrArg State.operand (cycle_change s).frame :)

@[simp] theorem State.cycle_result (s : State) : s.cycle.result = s.result :=
  (congrArg State.result (cycle_change s).frame :)

/-- Settles O50: each branch of a cycle writes only those fields, and a write appends. -/
theorem cycleFrame : Obligations.CycleFrame := by
  unfold Obligations.CycleFrame
  exact fun s => ⟨(cycle_change s).frame, (cycle_change s).outputs⟩

end Sys2Proof.Machine
end

section
/-!
PROOFS. What a step does to the registers (R21 to R23, R200, R202), and which steps are refused (R60).
-/

namespace Sys2Proof.Machine

/-! ### All that accept can do (R200) -/

/-- An accepted word is a word command's, a stream command's, or illegal. -/
theorem acceptCommand_cases {w : Word} {s t : State} (h : acceptCommand w s = .next t) :
    (∃ i : Instr, w = encode i ∧ i.isWordCommand = true ∧ WordEffect i (s.accepted w) t) ∨
    (∃ (v : Variant) (start : InputChannel → Phase), (start = .encStream v ∨ start = .decStream v) ∧
      t = acceptStream start (s.accepted w)) ∨
    t = (s.accepted w).raise .illegalCommand := by
  cases hw : decode w with
  | error e =>
    rw [acceptCommand_of_error s hw] at h
    cases h
    exact .inr (.inr rfl)
  | ok i =>
    rw [acceptCommand_of_ok s hw] at h
    cases hi : i.isWordCommand with
    | true => exact .inl ⟨i, (decode_eq_ok_iff w i).mp hw, hi, wordEffect_of_exec hi h⟩
    | false =>
      obtain ⟨v, start, hstart, he⟩ := exec_stream hi (s.accepted w)
      cases he.symm.trans h
      exact .inr (.inl ⟨v, start, hstart, rfl⟩)

section
variable {w : Word} {s t : State} (h : acceptCommand w s = .next t)
include h

theorem acceptCommand_cmdLast : t.cmdLast = w := by
  obtain ⟨_, -, -, he⟩ | ⟨_, _, -, rfl⟩ | rfl := acceptCommand_cases h
  · exact he.cmdLast_eq
  · exact acceptStream_cmdLast _ _
  · rfl

theorem acceptCommand_operand : t.operand = s.operand := by
  obtain ⟨_, -, -, he⟩ | ⟨_, _, -, rfl⟩ | rfl := acceptCommand_cases h
  · exact he.operand_eq
  · exact acceptStream_operand _ _
  · rfl

/-- Of the accepted words only a word command's writes RESULT, and only where it succeeds. -/
theorem acceptCommand_of_result_ne (hne : t.result ≠ s.result) :
    ∃ i : Instr, w = encode i ∧ i.isWordCommand = true ∧ i ≠ .nop ∧ t.err = .noError ∧
      (i.var = 0 → t.result.toNat < 2 ^ 32) := by
  obtain ⟨i, hw, hi, he⟩ | ⟨_, _, -, rfl⟩ | rfl := acceptCommand_cases h
  · exact ⟨i, hw, hi, he.of_result_ne hne⟩
  · exact absurd (acceptStream_result _ _) hne
  · exact absurd rfl hne

end

/-! ### All that a step can do to the engine -/

/-- A host operation is an accepted word, a cycle that the host waits for, or touches no more than OPERAND, the next
input and what the host has seen. -/
theorem hostStep_effect {op : HostOp} {s t : State} (h : hostStep op s = .next t) :
    (∃ w, op = .store Reg.cmd.access w ∧ s.phase = .idle ∧ acceptCommand w s = .next t) ∨
    (∃ es, t = ({ s with events := es } : State).cycle) ∨
    (∃ x inp obs, t = { s with operand := x, nextInput := inp, observed := obs } ∧
      (x ≠ s.operand → op = .store Reg.operand.access x)) := by
  obtain haccept | ⟨w, -, -, rfl⟩ | ⟨x, hop, rfl⟩ | ⟨_, _, -, -, -, rfl⟩ | ⟨r, -, rfl⟩ | ⟨-, -, rfl⟩ | ⟨-, -, rfl⟩ |
    ⟨bs, -, rfl⟩ | ⟨-, rfl⟩ | ⟨-, rfl⟩ := hostStep_cases h
  case inl => exact .inl haccept
  case inr.inr.inl => exact .inr (.inr ⟨x, _, _, rfl, fun _ => hop⟩)
  case inr.inr.inr.inr.inr.inl => exact .inr (.inl ⟨_, rfl⟩)
  all_goals exact .inr (.inr ⟨_, _, _, rfl, absurd rfl⟩)

/-- A step accepts a word, resets, takes a cycle, or touches no more than OPERAND and what is the host's. -/
theorem step_effect {s t : State} (h : step s = .next t) :
    (∃ w es, s.events = .host (.store Reg.cmd.access w) :: es ∧ s.phase = .idle ∧
      acceptCommand w { s with events := es } = .next t) ∨
    (∃ es, s.events = .reset :: es ∧ t = ({ s with events := es } : State).resetEngine) ∨
    (∃ es, t = ({ s with events := es } : State).cycle) ∨
    (∃ x inp obs es, t = { s with operand := x, nextInput := inp, observed := obs, events := es } ∧
      (x ≠ s.operand → s.events = .host (.store Reg.operand.access x) :: es)) := by
  obtain ⟨-, rfl⟩ | ⟨es, -, rfl⟩ | hreset | ⟨op, es, he, hop⟩ := step_cases h
  · exact .inr (.inr (.inl ⟨s.events, rfl⟩))
  · exact .inr (.inr (.inl ⟨es, rfl⟩))
  · exact .inr (.inl hreset)
  obtain ⟨w, rfl, hp, hacc⟩ | ⟨es', rfl⟩ | ⟨x, inp, obs, rfl, hx⟩ := hostStep_effect hop
  · exact .inl ⟨w, es, he, hp, hacc⟩
  · exact .inr (.inr (.inl ⟨es', rfl⟩))
  · exact .inr (.inr (.inr ⟨x, inp, obs, es, rfl, fun hne => hx hne ▸ he⟩))

/-- Settles O54: of a step's effects, the accept of a word and a cycle leave OPERAND. -/
theorem operandChangesOnlyFromOutside : Obligations.OperandChangesOnlyFromOutside := by
  unfold Obligations.OperandChangesOnlyFromOutside
  intro s t h hne
  obtain ⟨w, es, -, -, hacc⟩ | ⟨es, he, rfl⟩ | ⟨es, rfl⟩ | ⟨x, _, _, es, rfl, hx⟩ := step_effect h
  · exact absurd (acceptCommand_operand hacc) hne
  · exact .inr ⟨rfl, es, he⟩
  · exact absurd (State.cycle_operand _) hne
  · exact .inl ⟨es, hx hne⟩

theorem step_of_reset {s : State} {es : List Event} (h : s.events = .reset :: es) :
    step s = .next ({ s with events := es } : State).resetEngine :=
  step_of_cons h

/-- Settles O55: an accepted word and a reset write CMD_LAST, and no other effect of a step does. -/
theorem cmdLastIsTheLastAcceptedWord : Obligations.CmdLastIsTheLastAcceptedWord := by
  unfold Obligations.CmdLastIsTheLastAcceptedWord
  intro s t h
  refine ⟨fun w es he hp => ?accepted, fun es he => ?reset, fun hne => ?changed⟩
  case accepted =>
    rw [step_of_command_idle he hp] at h
    exact acceptCommand_cmdLast h
  case reset =>
    rw [step_of_reset he] at h
    cases h
    rfl
  case changed =>
    obtain ⟨w, es, he, hp, -⟩ | ⟨es, he, -⟩ | ⟨es, rfl⟩ | ⟨_, _, _, _, rfl, -⟩ := step_effect h
    · exact .inl ⟨w, es, he, hp⟩
    · exact .inr ⟨es, he⟩
    · exact absurd (State.cycle_cmdLast _) hne
    · exact absurd rfl hne

/-- Settles O56: of a step's effects, a reset and the success of an accepted word command write RESULT. -/
theorem resultChangesOnlyOnSuccess : Obligations.ResultChangesOnlyOnSuccess := by
  unfold Obligations.ResultChangesOnlyOnSuccess
  intro s t h hne
  obtain ⟨w, es, he, hp, hacc⟩ | ⟨es, he, -⟩ | ⟨es, rfl⟩ | ⟨_, _, _, _, rfl, -⟩ := step_effect h
  · obtain ⟨i, rfl, hresult⟩ := acceptCommand_of_result_ne hacc hne
    exact .inr ⟨i, es, he, hp, hresult⟩
  · exact .inl ⟨es, he⟩
  · exact absurd (State.cycle_result _) hne
  · exact absurd rfl hne

/-! ### The step of each event (R202) -/

/-- Settles O59: the reset leaves the fields that are no registers. -/
theorem resetDuringAStreamKeepsItsOutput : Obligations.ResetDuringAStreamKeepsItsOutput := by
  unfold Obligations.ResetDuringAStreamKeepsItsOutput
  exact fun s es h => step_of_reset h

/-- Settles O4: a placed command is a store of its word, and an idle engine accepts it. -/
theorem stepRunsTheDecodedCommand : Obligations.StepRunsTheDecodedCommand := by
  unfold Obligations.StepRunsTheDecodedCommand
  refine ⟨fun s es w i h hp hw => step_of_legal_command h hp hw, fun s i => ?_⟩
  have hword : BitVec.ofNat 64 ((encode i).toNat % 2 ^ 64) = encode i := by
    rw [Nat.mod_eq_of_lt (encode i).isLt, BitVec.ofNat_toNat, BitVec.setWidth_eq]
  rw [State.withFetchWord, hword]
  exact step_of_legal_command (s := s.placeCommand (encode i)) rfl rfl ((decode_eq_ok_iff _ i).mpr rfl)

/-- Settles O9: OPERAND takes the store, and each offset is the one of the register whose value is named. -/
theorem hostLoadsAndOperandStores : Obligations.HostLoadsAndOperandStores := by
  unfold Obligations.HostLoadsAndOperandStores
  refine ⟨fun s es x h => step_of_store (r := .operand) h, fun s es o x ho h => ?_⟩
  have hreg : ∃ r : Reg, r.offset = o ∧ s.readReg r = x := by
    simp only [List.mem_cons, Prod.mk.injEq, List.not_mem_nil, or_false] at ho
    obtain ⟨rfl, rfl⟩ | ⟨rfl, rfl⟩ | ⟨rfl, rfl⟩ | ⟨rfl, rfl⟩ | ⟨rfl, rfl⟩ | ⟨rfl, rfl⟩ | ⟨rfl, rfl⟩ := ho
    exacts [⟨.cmd, rfl, rfl⟩, ⟨.operand, rfl, rfl⟩, ⟨.result, rfl, rfl⟩, ⟨.status, rfl, rfl⟩, ⟨.sinBytes, rfl, rfl⟩,
      ⟨.soutBytes, rfl, rfl⟩, ⟨.sframes, rfl, rfl⟩]
  obtain ⟨r, rfl, rfl⟩ := hreg
  exact step_of_load h

/-- While the engine is busy `wait` stays the next event, so the state is as it was but for the cycle. -/
theorem step_of_wait_busy {s : State} {es : List Event} (h : s.events = .host .wait :: es) (hp : s.phase ≠ .idle) :
    step s = .next s.cycle := by
  have hb : ({ s with events := es } : State).busy = true := Bool.eq_true_of_not_eq_false (mt busy_eq_false.mp hp)
  have hs : ({ s with events := .host .wait :: es } : State) = s := by rw [← h]
  rw [step_of_cons h]
  simp only [eventStep, hostStep, hb, if_true, hs]

theorem step_of_wait_idle {s : State} {es : List Event} (h : s.events = .host .wait :: es) (hp : s.phase = .idle) :
    step s = .next { s with events := es } := by
  have hb : ({ s with events := es } : State).busy = false := busy_eq_false.mpr hp
  simp [step_of_cons h, eventStep, hostStep, hb]

/-- Settles O12: a step is the engine's cycle for a scheduled cycle, for no event, and for a host that waits. -/
theorem schedulerSteps : Obligations.SchedulerSteps := by
  unfold Obligations.SchedulerSteps
  exact ⟨fun s es h => step_of_cons h, fun s h => step_of_nil h, fun s es h hp => step_of_wait_busy h hp,
    fun s es h hp => step_of_wait_idle h hp, fun s hp => cycle_of_idle hp⟩

theorem lastOutput_eq_headD (s : State) : s.lastOutput = s.outputs.headD [] := by
  unfold State.lastOutput
  cases s.outputs <;> rfl

/-- Settles O13: the three operations write one field each. -/
theorem hostChannelOperations : Obligations.HostChannelOperations := by
  unfold Obligations.HostChannelOperations
  simp only [← lastOutput_eq_headD]
  exact ⟨fun s es bs h => step_of_cons h, fun s es h => step_of_cons h, fun s es h => step_of_cons h⟩

/-! ### Refused steps (R60) -/

/-- A defined access passes the check. -/
theorem Access.wf_iff (a : Access) : a.wf = true ↔ a.width = 64 ∧ a.offset % 8 = 0 ∧ a.offset < 0x40 := by
  simp [Access.wf, and_assoc]

/-- Settles O57: an event that is no access always has a next state, and an access is as O10 says. -/
theorem stepRefusesOnlyUndefinedAccesses : Obligations.StepRefusesOnlyUndefinedAccesses := by
  unfold Obligations.StepRefusesOnlyUndefinedAccesses
  intro s
  have haccess (a : Access) (x : Word) (es : List Event)
      (h : s.events = .host (.store a x) :: es ∨ s.events = .host (.load a) :: es) :
      (∃ t, step s = .next t) ∨ (a.wf = false ∧ step s = .refused (.undefinedAccess a)) := by
    obtain ⟨hdefined, hundefined⟩ := undefinedAccessesAreRefused s es a x h
    by_cases ha : a.width = 64 ∧ a.offset % 8 = 0 ∧ a.offset < 0x40
    · exact .inl (hdefined ha)
    · exact .inr ⟨Bool.eq_false_of_not_eq_true (mt a.wf_iff.mp ha), hundefined ha⟩
  cases he : s.events with
  | nil => exact .inl ⟨_, step_of_nil he⟩
  | cons e es =>
    cases e with
    | cycle | reset => exact .inl ⟨_, step_of_cons he⟩
    | host op =>
      cases op with
      | store a x => exact (haccess a x es (.inl he)).imp_right fun ⟨hwf, hstep⟩ => ⟨a, es, hwf, hstep, .inr ⟨x, rfl⟩⟩
      | load a => exact (haccess a 0 es (.inr he)).imp_right fun ⟨hwf, hstep⟩ => ⟨a, es, hwf, hstep, .inl rfl⟩
      | supply bs | supplyOutput | readOutput => exact .inl ⟨_, step_of_cons he⟩
      | wait =>
        by_cases hp : s.phase = .idle
        · exact .inl ⟨_, step_of_wait_idle he hp⟩
        · exact .inl ⟨_, step_of_wait_busy he hp⟩

end Sys2Proof.Machine
end

section
/-!
PROOFS. The invariant of a running stream command (R27, R175, R176, R254): it holds at accept, every cycle keeps it, and
so does every step. While it holds, an error stands only in an idle engine (R218).
-/

namespace Sys2Proof.Machine

/-! ### The invariant, by PHASE -/

section
variable {s : State} {v : Variant} {ch : InputChannel}

theorem State.inv_of_idle (h : s.phase = .idle) : s.Inv := by
  unfold State.Inv
  rw [h]
  trivial

theorem State.inv_iff_of_encStream (h : s.phase = .encStream v ch) :
    s.Inv ↔ ∃ n, s.Progress ch v.FIN n (encodedFrames v ch.src n) := by
  unfold State.Inv
  rw [h]

theorem State.inv_iff_of_decStream (h : s.phase = .decStream v ch) :
    s.Inv ↔ ∃ n out, decodedFrames v ch.src n = some out ∧ s.Progress ch v.FOUT n out := by
  unfold State.Inv
  rw [h]

end

/-! ### Progress -/

/-- A running command that has read and written nothing. -/
theorem State.progress_zero {s : State} {src : List Byte} {consumed : Nat} (herr : s.err = .noError)
    (hsin : s.sinBytes = 0) (hsout : s.soutBytes = 0) (hframes : s.sframes = 0) (hout : s.outputs.head? = some []) :
    s.Progress ⟨src, 0⟩ consumed 0 [] :=
  ⟨(Nat.zero_mul _).symm, Nat.zero_le _, herr, hsin, hframes, hsout, hout⟩

theorem State.Progress.pos_eq {s : State} {ch : InputChannel} {consumed n : Nat} {out : List Byte}
    (h : s.Progress ch consumed n out) : ch.pos = n * consumed := h.1

theorem State.Progress.lastOutput_eq {s : State} {ch : InputChannel} {consumed n : Nat} {out : List Byte}
    (h : s.Progress ch consumed n out) : s.lastOutput = out := by
  obtain ⟨-, -, -, -, -, -, hout⟩ := h
  rw [lastOutput_eq_headD, List.headD_eq_head?_getD, hout]
  rfl

/-- Reading a whole frame and writing its bytes is one more frame of progress. -/
theorem State.Progress.transferred {s : State} {ch : InputChannel} {consumed n : Nat} {out : List Byte}
    (h : s.Progress ch consumed n out) (hle : ch.pos + consumed ≤ ch.src.length) (bs : List Byte) (p : Phase) :
    ({ s.transferred consumed bs with phase := p } : State).Progress ⟨ch.src, ch.pos + consumed⟩ consumed (n + 1)
      (out ++ bs) := by
  have hlast := h.lastOutput_eq
  obtain ⟨hpos, -, herr, hsin, hframes, hsout, -⟩ := h
  refine ⟨by rw [hpos, Nat.succ_mul], hle, ?err, ?sin, ?frames, ?sout, ?out⟩
  case err => rw [State.transferred_err, herr]
  case sin => rw [State.transferred_sinBytes, hsin, ← BitVec.ofNat_add]
  case frames => rw [State.transferred_sframes, hframes, BitVec.ofNat_add]; rfl
  case sout => rw [State.transferred_soutBytes, hsout, List.length_append, BitVec.ofNat_add]
  case out => rw [State.transferred_outputs, hlast]; rfl

/-! ### Cycles keep the invariant (R175, R176) -/

section
variable {s : State} {v : Variant} {ch : InputChannel}

/-- An encode cycle ends the command, or encodes a whole frame and goes on. -/
theorem cycle_cases_of_encStream (h : s.phase = .encStream v ch) :
    s.cycle.phase = .idle ∨
    (∃ r, r = (ch.src.drop ch.pos).take v.FIN ∧ ch.pos + v.FIN ≤ ch.src.length ∧
      s.cycle =
        { s.transferred v.FIN (encFrame v (padFrame v r)) with phase := .encStream v ⟨ch.src, ch.pos + v.FIN⟩ }) := by
  rw [cycle_of_encStream h]
  obtain ⟨_, -, he⟩ | ⟨-, -, he⟩ | ⟨r, -, hr, -, he⟩ := encCycle_cases v ch s
  · exact .inl (by rw [he]; rfl)
  · exact .inl (by rw [he]; rfl)
  rw [he]
  obtain ⟨_, -, hw⟩ | ⟨-, hw⟩ := writeFrame_cases (encFrame v (padFrame v r))
    (afterEncode v r.length ⟨ch.src, ch.pos + r.length⟩) (s.takeDraw.addSin r.length)
  · exact .inl (by rw [hw]; rfl)
  rw [hw, afterEncode_eq]
  by_cases hshort : r.length < v.FIN
  · exact .inl (if_pos hshort)
  obtain ⟨hlen, hle⟩ := length_read_of_le (FIN_pos v) (hr ▸ Nat.le_of_not_lt hshort)
  rw [← hr] at hlen
  exact .inr ⟨r, hr, hle, by rw [if_neg hshort, hlen, State.transferred]⟩

/-- A decode cycle ends the command, or decodes a whole frame and goes on. -/
theorem cycle_cases_of_decStream (h : s.phase = .decStream v ch) :
    s.cycle.phase = .idle ∨
    (∃ r bs, r = (ch.src.drop ch.pos).take v.FOUT ∧ ch.pos + v.FOUT ≤ ch.src.length ∧ decFrame v r = .decoded bs ∧
      s.cycle = { s.transferred v.FOUT (trim bs) with phase := .decStream v ⟨ch.src, ch.pos + v.FOUT⟩ }) := by
  rw [cycle_of_decStream h]
  obtain ⟨_, -, he⟩ | ⟨-, -, he⟩ | ⟨_, -, -, -, -, he⟩ | ⟨_, _, -, -, -, -, -, he⟩ | 
    ⟨r, bs, -, hr, -, hfull, hdec, he⟩ := decCycle_cases v ch s
  case inr.inr.inr.inr =>
    rw [he]
    obtain ⟨_, -, hw⟩ | ⟨-, hw⟩ := writeFrame_cases (trim bs)
      (fun t => { t with phase := .decStream v ⟨ch.src, ch.pos + r.length⟩ }) (s.takeDraw.addSin r.length)
    · exact .inl (by rw [hw]; rfl)
    obtain ⟨hlen, hle⟩ := length_read_of_le (FOUT_pos v) (hr ▸ hfull)
    rw [← hr] at hlen
    exact .inr ⟨r, bs, hr, hle, hdec, by rw [hw, hlen, State.transferred]⟩
  all_goals exact .inl (by rw [he]; rfl)

theorem State.Inv.cycle_of_encStream (h : s.Inv) (hp : s.phase = .encStream v ch) : s.cycle.Inv := by
  obtain ⟨n, hn⟩ := (State.inv_iff_of_encStream hp).mp h
  obtain hidle | ⟨r, rfl, hle, hc⟩ := cycle_cases_of_encStream hp
  · exact State.inv_of_idle hidle
  · have hphase : s.cycle.phase = .encStream v ⟨ch.src, ch.pos + v.FIN⟩ := by rw [hc]
    have hnext := hn.transferred hle (encFrame v (padFrame v ((ch.src.drop ch.pos).take v.FIN)))
      (.encStream v ⟨ch.src, ch.pos + v.FIN⟩)
    rw [← hc, congrArg ch.src.drop hn.pos_eq, ← frameSlice, ← encodedFrames_succ] at hnext
    exact (State.inv_iff_of_encStream hphase).mpr ⟨n + 1, hnext⟩

theorem decodedFrames_succ_of_decoded {src out bs : List Byte} {n : Nat} (h : decodedFrames v src n = some out)
    (hdec : decFrame v (frameSlice v.FOUT src n) = .decoded bs) :
    decodedFrames v src (n + 1) = some (out ++ trim bs) := by
  simp only [decodedFrames, h, hdec]

theorem State.Inv.cycle_of_decStream (h : s.Inv) (hp : s.phase = .decStream v ch) : s.cycle.Inv := by
  obtain ⟨n, out, hout, hn⟩ := (State.inv_iff_of_decStream hp).mp h
  obtain hidle | ⟨r, bs, rfl, hle, hdec, hc⟩ := cycle_cases_of_decStream hp
  · exact State.inv_of_idle hidle
  · have hphase : s.cycle.phase = .decStream v ⟨ch.src, ch.pos + v.FOUT⟩ := by rw [hc]
    have hnext := hn.transferred hle (trim bs) (.decStream v ⟨ch.src, ch.pos + v.FOUT⟩)
    rw [← hc] at hnext
    rw [hn.pos_eq] at hdec
    exact (State.inv_iff_of_decStream hphase).mpr
      ⟨n + 1, out ++ trim bs, decodedFrames_succ_of_decoded hout hdec, hnext⟩

theorem State.Inv.cycle (h : s.Inv) : s.cycle.Inv := by
  cases hp : s.phase with
  | idle => rwa [cycle_of_idle hp]
  | encStream v ch => exact h.cycle_of_encStream hp
  | decStream v ch => exact h.cycle_of_decStream hp

end

/-! ### Accept brings the invariant about (R174) -/

theorem acceptStream_inv {v : Variant} {start : InputChannel → Phase}
    (hstart : start = .encStream v ∨ start = .decStream v) (s : State) : (acceptStream start s).Inv := by
  cases hd : s.nextDraw with
  | fail k =>
    rw [acceptStream_of_fail start hd]
    exact State.inv_of_idle rfl
  | ok =>
    rw [acceptStream_of_ok start hd]
    obtain rfl | rfl := hstart
    · exact (State.inv_iff_of_encStream rfl).mpr ⟨0, State.progress_zero rfl rfl rfl rfl rfl⟩
    · exact (State.inv_iff_of_decStream rfl).mpr ⟨0, [], rfl, State.progress_zero rfl rfl rfl rfl rfl⟩

theorem acceptCommand_inv {w : Word} {s t : State} (hp : s.phase = .idle) (h : acceptCommand w s = .next t) :
    t.Inv := by
  obtain ⟨_, -, -, he⟩ | ⟨_, _, hstart, rfl⟩ | rfl := acceptCommand_cases h
  · exact State.inv_of_idle (he.phase_eq.trans hp)
  · exact acceptStream_inv hstart _
  · exact State.inv_of_idle hp

/-! ### Every step keeps it -/

/-- Settles O51: accept starts from an idle engine, a reset ends in one, a cycle is one more frame or the end, and the
host's other operations touch no field that the invariant speaks of. -/
theorem stepKeepsTheStreamInvariant : Obligations.StepKeepsTheStreamInvariant := by
  unfold Obligations.StepKeepsTheStreamInvariant
  intro s t hinv h
  obtain ⟨w, es, -, hp, hacc⟩ | ⟨es, -, rfl⟩ | ⟨es, rfl⟩ | ⟨_, _, _, es, rfl, -⟩ := step_effect h
  · exact acceptCommand_inv (s := { s with events := es }) hp hacc
  · exact State.inv_of_idle rfl
  · exact State.Inv.cycle (s := { s with events := es }) hinv
  · exact hinv

/-- Settles O52: the reset state is idle. -/
theorem resetMeetsTheStreamInvariant : Obligations.ResetMeetsTheStreamInvariant := by
  unfold Obligations.ResetMeetsTheStreamInvariant
  exact State.inv_of_idle rfl

/-! ### Errors (R218, R254) -/

theorem State.Inv.err_of_busy {s : State} (h : s.Inv) (hp : s.phase ≠ .idle) : s.err = .noError := by
  cases hphase : s.phase with
  | idle => exact absurd hphase hp
  | encStream v ch =>
    obtain ⟨_, -, -, herr, -⟩ := (State.inv_iff_of_encStream hphase).mp h
    exact herr
  | decStream v ch =>
    obtain ⟨_, _, -, -, -, herr, -⟩ := (State.inv_iff_of_decStream hphase).mp h
    exact herr

/-- Accept clears ERR before it does anything else (R200). -/
theorem acceptCommand_setErr (w : Word) (s : State) (e : ErrCode) :
    acceptCommand w (s.setErr e) = acceptCommand w s := rfl

/-- Settles O53: a running command has no error, and the accept of a word starts by clearing the old one. -/
theorem errorLeavesTheEngineIdle : Obligations.ErrorLeavesTheEngineIdle := by
  unfold Obligations.ErrorLeavesTheEngineIdle
  have hidle (s : State) (h : s.Inv) (herr : s.err ≠ .noError) : s.phase = .idle := by
    by_contra hp
    exact herr (h.err_of_busy hp)
  refine ⟨hidle, fun s es h herr he => ?nop, fun s es w he hp => ?word⟩
  case nop =>
    rw [step_of_legal_command he (hidle s h herr) Laws.EncodeRoundTrip.nop]
    exact exec_nop _
  case word =>
    obtain ⟨t, ht⟩ := acceptCommand_eq_next w { s with events := es }
    refine ⟨t, (step_of_command_idle he hp).trans ht, fun e => ?_⟩
    rw [step_of_command_idle (s := { s with err := e }) he hp, ← ht]
    exact acceptCommand_setErr w { s with events := es } e

end Sys2Proof.Machine
end

section
/-!
PROOFS. A platform with several engines (R222): a step, or an access to a block, is a step of one engine.
-/

namespace Sys2Proof.Machine

theorem blockOffset_eq_some_iff {base addr : Word} {offset : Nat} :
    blockOffset base addr = some offset ↔ (addr - base).toNat < 0x40 ∧ offset = (addr - base).toNat := by
  unfold blockOffset
  split <;> simp_all [eq_comm]

theorem blockOffset_eq_none_iff {base addr : Word} : blockOffset base addr = none ↔ 0x40 ≤ (addr - base).toNat := by
  simp [blockOffset]

theorem hostStep_of_blockStep {b : BusOp} {addr : Word} {offset : Nat} {s t : State}
    (h : blockStep b addr offset s = .next t) : hostStep (b.hostOp offset) s = .next t := by
  unfold blockStep at h
  split at h
  · exact h
  · cases h

/-- All an access can do that answers a next platform: the first engine whose block holds the address takes it, or, past
an engine whose block does not, one of the others does (R63). -/
theorem busStep_cons_cases {b : BusOp} {addr : Word} {e : PlacedEngine} {es es' : List PlacedEngine}
    (h : busStep b addr (e :: es) = .next es') :
    (∃ t, (addr - e.base).toNat < 0x40 ∧ hostStep (b.hostOp (addr - e.base).toNat) e.state = .next t ∧
      es' = { e with state := t } :: es) ∨
    (∃ ts, 0x40 ≤ (addr - e.base).toNat ∧ busStep b addr es = .next ts ∧ es' = e :: ts) := by
  rw [busStep] at h
  split at h
  next offset ho =>
    obtain ⟨hlt, rfl⟩ := blockOffset_eq_some_iff.mp ho
    split at h
    next t ht =>
      cases h
      exact .inl ⟨t, hlt, hostStep_of_blockStep ht, rfl⟩
    all_goals cases h
  next ho =>
    split at h
    next ts hts =>
      cases h
      exact .inr ⟨ts, blockOffset_eq_none_iff.mp ho, hts, rfl⟩
    all_goals cases h

/-- All a step of engine k can do that answers a next platform. -/
theorem engineStep_eq_next {k : Nat} {es es' : List PlacedEngine} {e : PlacedEngine} (he : es[k]? = some e)
    (h : engineStep k es = .next es') : ∃ t, step e.state = .next t ∧ es' = es.set k { e with state := t } := by
  simp only [engineStep, he] at h
  split at h
  next t ht =>
    cases h
    exact ⟨t, ht, rfl⟩
  all_goals cases h

/-- Settles O60: engine k's state is set from its own step, and an access goes down the list to the first block that
holds its address. -/
theorem enginesShareNothing : Obligations.EnginesShareNothing := by
  unfold Obligations.EnginesShareNothing
  refine ⟨fun es k e he => ⟨fun t ht => ?own, fun es' h j hj => ?others⟩, fun b addr es => ?access⟩
  case own =>
    have hnext : nextStep e.state = .next t := ht
    simp only [engineStep, he, hnext]
  case others =>
    obtain ⟨t, -, rfl⟩ := engineStep_eq_next he h
    exact List.getElem?_set_ne hj.symm
  case access =>
    induction es with
    | nil => exact fun es' h => nomatch h
    | cons e es ih =>
      intro es' h
      obtain ⟨t, hlt, hstep, rfl⟩ | ⟨ts, hge, hts, rfl⟩ := busStep_cons_cases h
      · exact ⟨0, e, t, rfl, hlt, hstep, rfl, fun j _ hj => absurd hj (Nat.not_lt_zero j)⟩
      · obtain ⟨k, e', t, hk, hlt, hstep, rfl, hbelow⟩ := ih ts hts
        refine ⟨k + 1, e', t, hk, hlt, hstep, rfl, fun j e'' hj he'' => ?_⟩
        cases j with
        | zero =>
          cases he''
          exact hge
        | succ j => exact hbelow j e'' (Nat.lt_of_succ_lt_succ hj) he''

end Sys2Proof.Machine
end
